-- ==== Sys2Proof/Word.lean ====
section
/-! DEFINITION. The words and the enumerations of the OptoNCDT framer core: the byte, the binary32
pattern of a real register, the decoder positions, the scheduler states, the framing tags, the five
key formats of the opcode table and one command of the operation trace. -/

namespace Sys2Proof

/-- One byte of a serial stream; bit 7 is the most significant (R11, R68). -/
abbrev Byte := BitVec 8

/-- The IEEE 754 binary32 pattern of a real register: sign bit 31, biased exponent bits 30 to 23,
fraction bits 22 to 0 (R12, NUM_EXACT32). -/
abbrev F32 := BitVec 32

/-- `rxState`: which byte of a sample the decoder of a channel expects next (R21). -/
inductive RxState where
  | awaitingByte1
  | awaitingByte2
  | awaitingByte3
  deriving DecidableEq, Repr, Inhabited

/-- `schedState`: the seven states of the subsystem scheduler, in the order of the source's table
(R34, R97). -/
inductive SchedState where
  | reset
  | waitLaserReset
  | initLaser
  | waitInitDone
  | checkNewData
  | checkNewPacket
  | filterPacket
  deriving DecidableEq, Repr, Inhabited

/-- The four values of the framing bits, bits 7 and 6 of a byte (R72, R90). -/
inductive Tag where
  | t00
  | t01
  | t10
  | t11
  deriving DecidableEq, Repr, Inhabited

/-- The five key formats of the opcode table (R99): wire byte in a decoder position, scheduler
state, raw value, gate bit, operation code. -/
inductive Format where
  | W
  | S
  | C
  | G
  | OP
  deriving DecidableEq, Repr, Inhabited

/-- One entry of the operation trace as it stands before decoding: the key of one opcode-table
format (R99) and the operands the table gives no bits, the channel index (a natural number, D8) and
the byte of FEED. A format that has no such operand ignores it. -/
structure Cmd where
  format : Format
  key : BitVec 16
  ch : Nat
  b : Byte
  deriving DecidableEq, Repr, Inhabited

end Sys2Proof
end

