-- ==== Sys2Proof/Config.lean ====
section
/-! DEFINITION. What is fixed for a machine: the constants of R8, the parameters of R9 and the free
values. The parameters a run may not change are one record of plain data, `Params`, which State
carries, so that a statement over every state is a statement over every value of them. -/

namespace Sys2Proof
namespace Config

/-- TAG_MASK: the two framing bits of a byte (R8). -/
def tagMask : Byte := 0xC0
/-- TAG_1, the framing bits of a first byte (R8). -/
def tag1 : Byte := 0x00
/-- TAG_2, the framing bits of a second byte (R8). -/
def tag2 : Byte := 0x40
/-- TAG_3, the framing bits of a third byte (R8). -/
def tag3 : Byte := 0x80
/-- DATA_MASK_1, the data bits kept from a first byte (R8). -/
def dataMask1 : Byte := 0x3F
/-- DATA_MASK_2, the data bits kept from a second byte (R8). -/
def dataMask2 : Byte := 0x3F
/-- DATA_MASK_3, the data bits kept from a third byte (R8). -/
def dataMask3 : Byte := 0x0F
/-- ERR_SENTINEL, the sensor's out-of-range code 65467 (R8, R95). -/
def errSentinel : BitVec 16 := 65467
/-- BURST, the byte-drain iterations of one CheckNewData step (R8, R195). -/
def burst : Nat := 3
/-- DEBOUNCE_THRESHOLD: WaitLaserReset is left when the counter exceeds it (R8, R192). -/
def debounceThreshold : Nat := 50
/-- DIST_INIT_F, 99999.9 rounded to binary32, which is 99999.8984375 (R8, R12, C8). -/
def distInit : F32 := 0x47C34FF3
/-- FILT_INIT, the initial `filteredValue` and `previousValue`, 0.0 (R8). -/
def filtInit : F32 := 0x00000000
/-- TICK_PERIOD in milliseconds in the reference system; no rule of the machine uses it (R9, D21,
R294; assumption log 19). -/
def tickPeriodMs : Nat := 100

end Config

/-- RAW_LATCH: where the assembled value lives between completion and conversion (R9, D4, R155). -/
inductive RawLatch where
  /-- The register `raw18` is written when the third byte is accepted (the default). -/
  | atCompletion
  /-- There is no latch; CONVERT assembles from `rawFrame` when it runs. -/
  | atConversion
  deriving DecidableEq, Repr, Inhabited

/-- PASS_MODE: how much of the scheduler table one PROCESS executes (R9, D3, R201). -/
inductive PassMode where
  /-- One state's action and transition (the default). -/
  | oneState
  /-- The three data states in one invocation. -/
  | fused
  deriving DecidableEq, Repr, Inhabited

/-- The opaque FaultFlags value of the fault-tree collaborator (R33, D18). Its bits have no meaning
here; the model stores it and compares it for equality only (U10). -/
structure FaultFlags where
  bits : Nat
  deriving DecidableEq, Repr, Inhabited

/-- The parameters of R9 that some rule uses, but for N_CH, which is the length of the channel
array. Assumption log 2 and 3. -/
structure Params where
  /-- CTR_W, the width in bits of both event counters (R31, R32, D6). -/
  ctrW : Nat
  /-- DEB_W, the width in bits of the debounce counter (R35, D7). -/
  debW : Nat
  /-- RAW_LATCH (D4). -/
  rawLatch : RawLatch
  /-- PASS_MODE (D3). -/
  passMode : PassMode
  /-- INIT_CMD, the bytes of the mode-configuration command (R100, D9). -/
  initCmd : List Byte
  /-- INIT_DONE_CHECK past the answers State lists: what it answers from then on (R194, D13). False with
  no answer listed is the check that is never true (R288, U6). Assumption log 10. -/
  initDoneRest : Bool
  /-- FAULT_INIT, what the collaborator's `init(faultFlags)` leaves (R33, R64, D18). -/
  faultInit : FaultFlags
  deriving DecidableEq, Repr, Inhabited

/-- INIT_CMD of the machine that leaves reset: open, the spec gives no byte of it (D9). A free
value: nothing constrains it. -/
opaque Config.initCmd : List Byte

/-- FAULT_INIT of the machine that leaves reset: open, the collaborator's (D18). A free value. -/
opaque Config.faultInit : FaultFlags

/-- The value GETDIST returns for a bad index, one per draw (R222, D14, U1). A free value. -/
opaque Config.freeReal : Nat → F32

/-- The value GETERR returns for a bad index, one per draw (R223, D14, U1). A free value. -/
opaque Config.freeBool : Nat → Bool

/-- The parameters at the defaults of R9; the two open ones are free values. -/
def Params.default : Params where
  ctrW := 32
  debW := 32
  rawLatch := .atCompletion
  passMode := .oneState
  initCmd := Config.initCmd
  initDoneRest := true
  faultInit := Config.faultInit

end Sys2Proof
end

