-- ==== Sys2Proof/Syntax.lean ====
section
/-! DEFINITION. The instructions: one constructor for each of the 31 rows of the opcode table, in
the order of the table (R99). The field bits of a row's key are arguments; the part of the key that
is a register of the machine (`rxState`, `schedState`, the gate bit) is the constructor itself. -/

namespace Sys2Proof

/-- The operations, scheduler steps, decoder transitions and arms of the block. `ch` is a channel
index, any natural number (R61); `d` the data bits of an accepted byte (R92); `x` and `rr` bits the
spec says are ignored (R90, R96). -/
inductive Instr where
  /-- RX1.ACC, first byte accepted (R121). -/
  | rx1Acc (ch : Nat) (d : BitVec 6)
  /-- RX1.REJ01, second-byte tag while expecting the first (R122). -/
  | rx1Rej01 (ch : Nat) (x : BitVec 6)
  /-- RX1.REJ10, third-byte tag while expecting the first (R123). -/
  | rx1Rej10 (ch : Nat) (x : BitVec 6)
  /-- RX1.REJ11, never-valid tag while expecting the first (R124). -/
  | rx1Rej11 (ch : Nat) (x : BitVec 6)
  /-- RX2.ACC, second byte accepted (R125). -/
  | rx2Acc (ch : Nat) (d : BitVec 6)
  /-- RX2.REJ00, first-byte tag while expecting the second (R126). -/
  | rx2Rej00 (ch : Nat) (x : BitVec 6)
  /-- RX2.REJ10, third-byte tag while expecting the second (R127). -/
  | rx2Rej10 (ch : Nat) (x : BitVec 6)
  /-- RX2.REJ11, never-valid tag while expecting the second (R128). -/
  | rx2Rej11 (ch : Nat) (x : BitVec 6)
  /-- RX3.ACC, third byte accepted, sample complete (R129). -/
  | rx3Acc (ch : Nat) (rr : BitVec 2) (d : BitVec 4)
  /-- RX3.REJ00, first-byte tag while expecting the third (R130). -/
  | rx3Rej00 (ch : Nat) (x : BitVec 6)
  /-- RX3.REJ01, second-byte tag while expecting the third (R131). -/
  | rx3Rej01 (ch : Nat) (x : BitVec 6)
  /-- RX3.REJ11, never-valid tag while expecting the third (R132). -/
  | rx3Rej11 (ch : Nat) (x : BitVec 6)
  /-- S.RESET (R191). -/
  | sReset
  /-- S.WAITLASERRESET (R192). -/
  | sWaitLaserReset
  /-- S.INITLASER (R193). -/
  | sInitLaser
  /-- S.WAITINITDONE (R194). -/
  | sWaitInitDone
  /-- S.CHECKNEWDATA (R195). -/
  | sCheckNewData
  /-- S.CHECKNEWPACKET (R196). -/
  | sCheckNewPacket
  /-- S.FILTERPACKET (R197). -/
  | sFilterPacket
  /-- CONVERT.ERR, the sample is the error sentinel (R151). -/
  | convertErr (ch : Nat)
  /-- CONVERT.OK, any other raw value, which is the row's key (R152). -/
  | convertOk (ch : Nat) (raw : BitVec 16)
  /-- FILTER.HOLD, out of range, no update (R171). -/
  | filterHold (ch : Nat)
  /-- FILTER.UPD, in range, update (R172). -/
  | filterUpd (ch : Nat)
  /-- INIT, subsystem initialisation and reset (R221). -/
  | init
  /-- TICK, the Tick Hook (R220). -/
  | tick
  /-- PROCESS, one scheduler invocation (R190). -/
  | process
  /-- GETDIST, `getDistance(channel)` (R222). -/
  | getDist (ch : Nat)
  /-- GETERR, `getErrorState(channel)` (R223). -/
  | getErr (ch : Nat)
  /-- FEED, one raw byte to a channel's decoder (R120). -/
  | feed (ch : Nat) (b : Byte)
  /-- CONVERT, sentinel check and conversion (R150). -/
  | convert (ch : Nat)
  /-- FILTER, the range-gated filter (R170). -/
  | filter (ch : Nat)
  deriving DecidableEq, Repr

end Sys2Proof
end

