-- ==== Sys2Proof/WellFormed.lean ====
section
/-! DEFINITION. Well-formed instructions. The types of the fields already bound every data field, and
a channel index out of range is a defined no-op (R61), so ONE check is left: a CONVERT.OK row is taken
only when CONVERT.ERR does not match, so its key is not the error sentinel (R99, R152). -/

namespace Sys2Proof

/-- The instruction is one the opcode table can select. -/
def Instr.wellFormed : Instr → Bool
  | .convertOk _ raw => raw != Config.errSentinel
  | .rx1Acc _ _ => true
  | .rx1Rej01 _ _ => true
  | .rx1Rej10 _ _ => true
  | .rx1Rej11 _ _ => true
  | .rx2Acc _ _ => true
  | .rx2Rej00 _ _ => true
  | .rx2Rej10 _ _ => true
  | .rx2Rej11 _ _ => true
  | .rx3Acc _ _ _ => true
  | .rx3Rej00 _ _ => true
  | .rx3Rej01 _ _ => true
  | .rx3Rej11 _ _ => true
  | .sReset => true
  | .sWaitLaserReset => true
  | .sInitLaser => true
  | .sWaitInitDone => true
  | .sCheckNewData => true
  | .sCheckNewPacket => true
  | .sFilterPacket => true
  | .convertErr _ => true
  | .filterHold _ => true
  | .filterUpd _ => true
  | .init => true
  | .tick => true
  | .process => true
  | .getDist _ => true
  | .getErr _ => true
  | .feed _ _ => true
  | .convert _ => true
  | .filter _ => true

end Sys2Proof
end

