-- ==== Sys2Proof/Decode.lean ====
section
/-! DEFINITION. Encodings (30_encoding.md): the bit fields of a byte, the selection tables of the
block (R91, R190, R150, R170), the decoder from a command of the trace to an instruction, the encoder,
the opcode table as data, and the reading of a table word. Every helper a test could show wrong
stands here. -/

namespace Sys2Proof

/-- The framing bits of a byte, tested as `b & 0xC0` (R11, R72, R91). -/
def tagOf (b : Byte) : Tag :=
  if b &&& Config.tagMask = Config.tag1 then .t00
  else if b &&& Config.tagMask = Config.tag2 then .t01
  else if b &&& Config.tagMask = Config.tag3 then .t10
  else .t11

/-- `b & 0x3F`, the data field of a first byte (R92). -/
def field0Of (b : Byte) : BitVec 6 := (b &&& Config.dataMask1).setWidth 6

/-- `b & 0x3F`, the data field of a second byte (R92). -/
def field1Of (b : Byte) : BitVec 6 := (b &&& Config.dataMask2).setWidth 6

/-- `b & 0x0F`, the data field of a third byte; bits 5 and 4 are ignored (R92, R96). -/
def field2Of (b : Byte) : BitVec 4 := (b &&& Config.dataMask3).setWidth 4

/-- Bits 5 to 0 of a byte, which a reject ignores (R90). -/
def lowBits (b : Byte) : BitVec 6 := b.extractLsb' 0 6

/-- Bits 5 and 4 of a byte, reserved and ignored in a third byte (R90). -/
def reservedBits (b : Byte) : BitVec 2 := b.extractLsb' 4 2

/-- The table of R91: the decoder transition selected by (`rxState`, `b & 0xC0`). -/
def wireRow (rx : RxState) (ch : Nat) (b : Byte) : Instr :=
  match rx, tagOf b with
  | .awaitingByte1, .t00 => .rx1Acc ch (field0Of b)
  | .awaitingByte1, .t01 => .rx1Rej01 ch (lowBits b)
  | .awaitingByte1, .t10 => .rx1Rej10 ch (lowBits b)
  | .awaitingByte1, .t11 => .rx1Rej11 ch (lowBits b)
  | .awaitingByte2, .t00 => .rx2Rej00 ch (lowBits b)
  | .awaitingByte2, .t01 => .rx2Acc ch (field1Of b)
  | .awaitingByte2, .t10 => .rx2Rej10 ch (lowBits b)
  | .awaitingByte2, .t11 => .rx2Rej11 ch (lowBits b)
  | .awaitingByte3, .t00 => .rx3Rej00 ch (lowBits b)
  | .awaitingByte3, .t01 => .rx3Rej01 ch (lowBits b)
  | .awaitingByte3, .t10 => .rx3Acc ch (reservedBits b) (field2Of b)
  | .awaitingByte3, .t11 => .rx3Rej11 ch (lowBits b)

/-- The step PROCESS selects by `schedState` (R190). -/
def schedRow : SchedState → Instr
  | .reset => .sReset
  | .waitLaserReset => .sWaitLaserReset
  | .initLaser => .sInitLaser
  | .waitInitDone => .sWaitInitDone
  | .checkNewData => .sCheckNewData
  | .checkNewPacket => .sCheckNewPacket
  | .filterPacket => .sFilterPacket

/-- The arm CONVERT selects by the assembled value (R150, R99: ERR has priority). -/
def convertRow (ch : Nat) (raw : BitVec 16) : Instr :=
  if raw = Config.errSentinel then .convertErr ch else .convertOk ch raw

/-- The arm FILTER selects by the gate bit (R170). -/
def filterRow (ch : Nat) (g : Bool) : Instr :=
  if g then .filterHold ch else .filterUpd ch

/-- The 2-bit code of `rxState` in a key of format W (R97). -/
def rxCode : RxState → BitVec 2
  | .awaitingByte1 => 0
  | .awaitingByte2 => 1
  | .awaitingByte3 => 2

/-- The decoder position of a 2-bit code; code 3 has no row (R97, R96). -/
def rxOfCode (c : BitVec 2) : Option RxState :=
  if c = 0 then some .awaitingByte1
  else if c = 1 then some .awaitingByte2
  else if c = 2 then some .awaitingByte3
  else none

/-- The 3-bit code of `schedState` in a key of format S (R97). -/
def schedCode : SchedState → BitVec 3
  | .reset => 0
  | .waitLaserReset => 1
  | .initLaser => 2
  | .waitInitDone => 3
  | .checkNewData => 4
  | .checkNewPacket => 5
  | .filterPacket => 6

/-- The scheduler state of a 3-bit code; code 7 has no row (R97). -/
def schedOfCode (c : BitVec 3) : Option SchedState :=
  if c = 0 then some .reset
  else if c = 1 then some .waitLaserReset
  else if c = 2 then some .initLaser
  else if c = 3 then some .waitInitDone
  else if c = 4 then some .checkNewData
  else if c = 5 then some .checkNewPacket
  else if c = 6 then some .filterPacket
  else none

/-- The operation of a 4-bit operation code; 0x0, 0x6, 0x7 and 0xB to 0xF are reserved (R97). -/
def opOfCode (code : BitVec 4) (ch : Nat) (b : Byte) : Option Instr :=
  if code = 0x1 then some .init
  else if code = 0x2 then some .tick
  else if code = 0x3 then some .process
  else if code = 0x4 then some (.getDist ch)
  else if code = 0x5 then some (.getErr ch)
  else if code = 0x8 then some (.feed ch b)
  else if code = 0x9 then some (.convert ch)
  else if code = 0xA then some (.filter ch)
  else none

/-- The width in bits of a format's key (R99). -/
def Format.width : Format → Nat
  | .W => 10
  | .S => 3
  | .C => 16
  | .G => 1
  | .OP => 4

/-- Why a command is no instruction. -/
inductive DecodeError where
  /-- A reserved operation code: it selects no operation and has no effect (R225). -/
  | reservedOp (code : BitVec 4)
  /-- A key no row of the opcode table has: `rxState` code 3, `schedState` code 7, or a key with a
  bit above its format's width (R96, R97, U5). -/
  | noRow (format : Format) (key : BitVec 16)
  deriving DecidableEq, Repr

/-- The decoder: total on every command, rejecting by name (R99). -/
def decode (c : Cmd) : Except DecodeError Instr :=
  if 2 ^ c.format.width ≤ c.key.toNat then .error (.noRow c.format c.key)
  else
    match c.format with
    | .W =>
      match rxOfCode (c.key.extractLsb' 8 2) with
      | some rx => .ok (wireRow rx c.ch (c.key.extractLsb' 0 8))
      | none => .error (.noRow c.format c.key)
    | .S =>
      match schedOfCode (c.key.extractLsb' 0 3) with
      | some st => .ok (schedRow st)
      | none => .error (.noRow c.format c.key)
    | .C => .ok (convertRow c.ch c.key)
    | .G => .ok (filterRow c.ch (c.key.getLsbD 0))
    | .OP =>
      match opOfCode (c.key.extractLsb' 0 4) c.ch c.b with
      | some i => .ok i
      | none => .error (.reservedOp (c.key.extractLsb' 0 4))

/-- The command of a key of format W: `rxState` code in bits 9 and 8, tag in bits 7 and 6, data or
ignored bits in 5 to 0 (R90, R99). -/
def wireCmd (ch : Nat) (rx : RxState) (tag : BitVec 2) (low : BitVec 6) : Cmd :=
  { format := .W, key := (rxCode rx ++ tag ++ low).setWidth 16, ch := ch, b := 0 }

/-- The command of a scheduler step (R97, R99). -/
def schedCmd (st : SchedState) : Cmd :=
  { format := .S, key := (schedCode st).setWidth 16, ch := 0, b := 0 }

/-- The command of an operation code (R97, R99). -/
def opCmd (code : BitVec 4) (ch : Nat) (b : Byte) : Cmd :=
  { format := .OP, key := code.setWidth 16, ch := ch, b := b }

/-- The encoder, written from the tables of R91, R97 and R99. -/
def encode : Instr → Cmd
  | .rx1Acc ch d => wireCmd ch .awaitingByte1 0b00 d
  | .rx1Rej01 ch x => wireCmd ch .awaitingByte1 0b01 x
  | .rx1Rej10 ch x => wireCmd ch .awaitingByte1 0b10 x
  | .rx1Rej11 ch x => wireCmd ch .awaitingByte1 0b11 x
  | .rx2Acc ch d => wireCmd ch .awaitingByte2 0b01 d
  | .rx2Rej00 ch x => wireCmd ch .awaitingByte2 0b00 x
  | .rx2Rej10 ch x => wireCmd ch .awaitingByte2 0b10 x
  | .rx2Rej11 ch x => wireCmd ch .awaitingByte2 0b11 x
  | .rx3Acc ch rr d => wireCmd ch .awaitingByte3 0b10 (rr ++ d)
  | .rx3Rej00 ch x => wireCmd ch .awaitingByte3 0b00 x
  | .rx3Rej01 ch x => wireCmd ch .awaitingByte3 0b01 x
  | .rx3Rej11 ch x => wireCmd ch .awaitingByte3 0b11 x
  | .sReset => schedCmd .reset
  | .sWaitLaserReset => schedCmd .waitLaserReset
  | .sInitLaser => schedCmd .initLaser
  | .sWaitInitDone => schedCmd .waitInitDone
  | .sCheckNewData => schedCmd .checkNewData
  | .sCheckNewPacket => schedCmd .checkNewPacket
  | .sFilterPacket => schedCmd .filterPacket
  | .convertErr ch => { format := .C, key := Config.errSentinel, ch := ch, b := 0 }
  | .convertOk ch raw => { format := .C, key := raw, ch := ch, b := 0 }
  | .filterHold ch => { format := .G, key := 1, ch := ch, b := 0 }
  | .filterUpd ch => { format := .G, key := 0, ch := ch, b := 0 }
  | .init => opCmd 0x1 0 0
  | .tick => opCmd 0x2 0 0
  | .process => opCmd 0x3 0 0
  | .getDist ch => opCmd 0x4 ch 0
  | .getErr ch => opCmd 0x5 ch 0
  | .feed ch b => opCmd 0x8 ch b
  | .convert ch => opCmd 0x9 ch 0
  | .filter ch => opCmd 0xA ch 0

/-- One row of the opcode table: a key of the format matches when `key & mask = value` (R99). -/
structure Row where
  format : Format
  value : BitVec 16
  mask : BitVec 16
  deriving DecidableEq, Repr

/-- The row of the opcode table an instruction belongs to, with the table's own `match` and `mask`
(R99). -/
def Instr.row : Instr → Row
  | .rx1Acc _ _ => ⟨.W, 0x000, 0x3C0⟩
  | .rx1Rej01 _ _ => ⟨.W, 0x040, 0x3C0⟩
  | .rx1Rej10 _ _ => ⟨.W, 0x080, 0x3C0⟩
  | .rx1Rej11 _ _ => ⟨.W, 0x0C0, 0x3C0⟩
  | .rx2Acc _ _ => ⟨.W, 0x140, 0x3C0⟩
  | .rx2Rej00 _ _ => ⟨.W, 0x100, 0x3C0⟩
  | .rx2Rej10 _ _ => ⟨.W, 0x180, 0x3C0⟩
  | .rx2Rej11 _ _ => ⟨.W, 0x1C0, 0x3C0⟩
  | .rx3Acc _ _ _ => ⟨.W, 0x280, 0x3C0⟩
  | .rx3Rej00 _ _ => ⟨.W, 0x200, 0x3C0⟩
  | .rx3Rej01 _ _ => ⟨.W, 0x240, 0x3C0⟩
  | .rx3Rej11 _ _ => ⟨.W, 0x2C0, 0x3C0⟩
  | .sReset => ⟨.S, 0x0, 0x7⟩
  | .sWaitLaserReset => ⟨.S, 0x1, 0x7⟩
  | .sInitLaser => ⟨.S, 0x2, 0x7⟩
  | .sWaitInitDone => ⟨.S, 0x3, 0x7⟩
  | .sCheckNewData => ⟨.S, 0x4, 0x7⟩
  | .sCheckNewPacket => ⟨.S, 0x5, 0x7⟩
  | .sFilterPacket => ⟨.S, 0x6, 0x7⟩
  | .convertErr _ => ⟨.C, 0xFFBB, 0xFFFF⟩
  | .convertOk _ _ => ⟨.C, 0x0000, 0x0000⟩
  | .filterHold _ => ⟨.G, 0x1, 0x1⟩
  | .filterUpd _ => ⟨.G, 0x0, 0x1⟩
  | .init => ⟨.OP, 0x1, 0xF⟩
  | .tick => ⟨.OP, 0x2, 0xF⟩
  | .process => ⟨.OP, 0x3, 0xF⟩
  | .getDist _ => ⟨.OP, 0x4, 0xF⟩
  | .getErr _ => ⟨.OP, 0x5, 0xF⟩
  | .feed _ _ => ⟨.OP, 0x8, 0xF⟩
  | .convert _ => ⟨.OP, 0x9, 0xF⟩
  | .filter _ => ⟨.OP, 0xA, 0xF⟩

/-- The rows of format W in the order of the table (R99). -/
def wireRows : List Row :=
  [⟨.W, 0x000, 0x3C0⟩, ⟨.W, 0x040, 0x3C0⟩, ⟨.W, 0x080, 0x3C0⟩, ⟨.W, 0x0C0, 0x3C0⟩,
   ⟨.W, 0x140, 0x3C0⟩, ⟨.W, 0x100, 0x3C0⟩, ⟨.W, 0x180, 0x3C0⟩, ⟨.W, 0x1C0, 0x3C0⟩,
   ⟨.W, 0x280, 0x3C0⟩, ⟨.W, 0x200, 0x3C0⟩, ⟨.W, 0x240, 0x3C0⟩, ⟨.W, 0x2C0, 0x3C0⟩]

/-- The rows of formats S, C and G; CONVERT.ERR stands before CONVERT.OK, the one place where the
order matters (R99). -/
def stepRows : List Row :=
  [⟨.S, 0x0, 0x7⟩, ⟨.S, 0x1, 0x7⟩, ⟨.S, 0x2, 0x7⟩, ⟨.S, 0x3, 0x7⟩, ⟨.S, 0x4, 0x7⟩,
   ⟨.S, 0x5, 0x7⟩, ⟨.S, 0x6, 0x7⟩, ⟨.C, 0xFFBB, 0xFFFF⟩, ⟨.C, 0x0000, 0x0000⟩,
   ⟨.G, 0x1, 0x1⟩, ⟨.G, 0x0, 0x1⟩]

/-- The rows of format OP (R99). -/
def opRows : List Row :=
  [⟨.OP, 0x1, 0xF⟩, ⟨.OP, 0x2, 0xF⟩, ⟨.OP, 0x3, 0xF⟩, ⟨.OP, 0x4, 0xF⟩, ⟨.OP, 0x5, 0xF⟩,
   ⟨.OP, 0x8, 0xF⟩, ⟨.OP, 0x9, 0xF⟩, ⟨.OP, 0xA, 0xF⟩]

/-- The opcode table: 31 rows. -/
def opcodeTable : List Row := wireRows ++ stepRows ++ opRows

/-- The first row of the table that a key of a format matches. -/
def firstRow (f : Format) (key : BitVec 16) : Option Row :=
  opcodeTable.find? fun r => r.format == f && key &&& r.mask == r.value

/-- The canonical wire encoding of a raw value, `enc(r)` of R94. -/
def encSample (r : BitVec 16) : Byte × Byte × Byte :=
  ((r &&& 0x3F).setWidth 8,
   0x40 ||| ((r >>> 6) &&& 0x3F).setWidth 8,
   0x80 ||| ((r >>> 12) &&& 0x0F).setWidth 8)

/-- The formats a table word of so many bits can belong to, in the order in which a word that rows
of several formats share is read (assumption log 5). -/
def formatsOfBits (nbits : Nat) : List Format :=
  if nbits = 1 then [.G]
  else if nbits = 3 then [.S]
  else if nbits = 4 then [.OP]
  else if nbits = 8 then [.OP, .S, .G]
  else if nbits = 10 then [.W]
  else if nbits = 16 then [.W, .C]
  else []

/-- The command does decode. -/
def Cmd.hasRow (c : Cmd) : Bool :=
  match decode c with
  | .ok _ => true
  | .error _ => false

/-- The command of a table word, operands zero: the first format of `formatsOfBits` in which the
word is a row's (assumption log 5). -/
def tableCmd (nbits w : Nat) : Option Cmd :=
  if 2 ^ nbits ≤ w then none
  else
    ((formatsOfBits nbits).map fun f =>
      ({ format := f, key := BitVec.ofNat 16 w, ch := 0, b := 0 } : Cmd)).find? Cmd.hasRow

/-- The instruction the decoder reads from a table word (the host's name). -/
def decodeTableWord (nbits w : Nat) : Option Instr :=
  match tableCmd nbits w with
  | none => none
  | some c =>
    match decode c with
    | .ok i => some i
    | .error _ => none

end Sys2Proof
end

