-- ==== Sys2Proof/Machine/State.lean ====
section
/-! DEFINITION. The state of the machine as plain data: the block's own registers (10_state.md), the
parameters of R9, the environment's answers (R40, R80), the history of the block's calls (R63), the
operation trace, and the model's own two fields (the last getter result and the draw counter); the
state right after INIT; the reasons a step can stop. -/

namespace Sys2Proof.Machine

/-- ChannelState: one physical laser channel (R20 to R33). -/
structure ChannelState where
  /-- Decoder position (R21). -/
  rxState : RxState
  /-- field0 of the sample in progress, 0 to 63 (R22). -/
  rawFrame0 : BitVec 6
  /-- field1 of the sample in progress, 0 to 63 (R22). -/
  rawFrame1 : BitVec 6
  /-- field2 of the sample in progress, 0 to 15 (R22). -/
  rawFrame2 : BitVec 4
  /-- The assembled value of the last completed sample, 0 to 65535 (R23, C1; assumption log 15). -/
  raw18 : BitVec 16
  /-- Last successfully decoded distance (R24). -/
  distanceMm : F32
  /-- Filter output (R25). -/
  filteredValue : F32
  /-- The filter's state register (R26). -/
  previousValue : F32
  /-- True when the last converted raw value was the error sentinel (R27). -/
  errorFlag : Bool
  /-- One-shot flag: a completed sample waits for conversion (R28). -/
  newPacketReady : Bool
  /-- One-shot flag: a converted sample waits for the filter (R29). -/
  pendingFilter : Bool
  /-- Latch set on every successful decode, never cleared but by INIT (R30, D17; assumption log 21). -/
  newDistanceAvailable : Bool
  /-- Saturating count of error sentinels, 0 to 2^CTR_W - 1 (R31). -/
  errorSentinelCount : Nat
  /-- Saturating count of framing errors in AwaitingByte1, 0 to 2^CTR_W - 1 (R32). -/
  framingErrorCount : Nat
  /-- The collaborator's opaque flags, written by INIT only (R33; assumption log 20). -/
  faultFlags : FaultFlags
  deriving DecidableEq, Repr, Inhabited

/-- One call of an environment primitive by the block (R14), with the answer where there is one. -/
inductive ExtCall where
  /-- `byteAvailable(ch)` and its answer (R62). -/
  | byteAvailable (ch : Nat) (answer : Bool)
  /-- `readByte(ch)` and the byte it consumed (R62). -/
  | readByte (ch : Nat) (b : Byte)
  /-- `writeBytes(ch, bytes)` (R63). -/
  | writeBytes (ch : Nat) (bytes : List Byte)
  /-- `init(faultFlags)` of the fault-tree module for one channel (R64). -/
  | faultInit (ch : Nat)
  /-- `initDone()` and its answer (R194). -/
  | initDone (answer : Bool)
  deriving DecidableEq, Repr

/-- What a getter returned (R222, R223). -/
inductive GetResult where
  | real (v : F32)
  | bool (v : Bool)
  deriving DecidableEq, Repr

/-- The whole machine: the block (R20) and what stands around it (R40). -/
structure State where
  /-- `S.schedState`, the scheduler's position (R34). -/
  schedState : SchedState
  /-- `S.debounceCounter`, 0 to 2^DEB_W - 1 (R35). -/
  debounceCounter : Nat
  /-- `C[0] .. C[N_CH-1]`; N_CH is the length (R20, R60, D8; assumption log 2). -/
  channels : List ChannelState
  /-- The parameters of R9; no step changes them (assumption log 3). -/
  params : Params
  /-- Per channel, the byte source's answers to the polls still to come, `none` for no data; past the
  end of a list the answer is no data (R40, R80, D12; assumption log 9). -/
  rx : List (List (Option Byte))
  /-- The answers of INIT_DONE_CHECK still to come; past the end the answer is
  `params.initDoneRest`, by default true (R194, D13; assumption log 10). -/
  initDoneAnswers : List Bool
  /-- The calls of environment primitives so far, oldest first; the transmit history is part of it
  (R40, R63; assumption log 11). -/
  calls : List ExtCall
  /-- The operations the main context and the tick context have issued and the block has not yet
  executed, in the one total order of R73 (assumption log 1). -/
  queue : List Cmd
  /-- The model's own: what the last getter returned (assumption log 12). -/
  getResult : Option GetResult
  /-- The model's own: how many free values have been drawn (assumption log 13). -/
  freeCount : Nat
  deriving DecidableEq, Repr

/-- No operation of the block traps, aborts or stops it (R240: "A model gives the block's step
function no fault outcome: every operation returns a next state"), so there is no fault reason. -/
inductive Fault where
  deriving DecidableEq, Repr

/-- Why a step has no meaning for what it was given. -/
inductive Refusal where
  /-- Raised by no arm of the model as it stands: the name the host's check reads for an instruction
  without a meaning. Safe. -/
  | notModelled (mnemonic : String)
  /-- Raised by `step` for a queue entry whose key has no row in the opcode table (`rxState` code 3,
  `schedState` code 7, a bit above the key's width): R96 and U5 call these unreachable. Safe: no such
  key exists in the block. -/
  | noSuchKey (format : Format) (key : BitVec 16)
  deriving DecidableEq, Repr

/-- A channel after INIT (R41, R221). The values R41 lists as chosen by the spec are D10's
(assumption log 14). -/
def ChannelState.reset (faultInit : FaultFlags) : ChannelState where
  rxState := .awaitingByte1
  rawFrame0 := 0
  rawFrame1 := 0
  rawFrame2 := 0
  raw18 := 0
  distanceMm := Config.distInit
  filteredValue := Config.filtInit
  previousValue := Config.filtInit
  errorFlag := false
  newPacketReady := false
  pendingFilter := false
  newDistanceAvailable := false
  errorSentinelCount := 0
  framingErrorCount := 0
  faultFlags := faultInit

/-- The machine right after INIT with `n` channels and given parameters: R41's values, no answer
given yet by the environment, no operation issued yet, and the history of that INIT's own calls of
the fault-tree module, ascending (R221). -/
def State.resetWith (n : Nat) (p : Params) : State where
  schedState := .reset
  debounceCounter := 0
  channels := List.replicate n (ChannelState.reset p.faultInit)
  params := p
  rx := []
  initDoneAnswers := []
  calls := (List.range n).map .faultInit
  queue := []
  getResult := none
  freeCount := 0

/-- The machine right after reset, which is INIT (R270, D22; assumption log 16): the
default parameters, and two channels (DESIGN CHOICE, assumption log 2: the spec leaves N_CH open). -/
def State.reset : State := State.resetWith 2 Params.default

end Sys2Proof.Machine
end

