-- ==== Sys2Proof/Machine/Numeric.lean ====
section
/-! DEFINITION. The numeric model NUM at its default NUM_EXACT32 (R12, D5): the exact value of a
binary32 pattern, the one rounding, the conversion, the filter recurrence and the gate. A finite
pattern is an integer number of units of 2^-149, so everything is exact integer arithmetic
(assumption log 7 and 8). Large constants stand on the
left of a product, where the kernel's reduction of Nat.mul does not count them down. -/

namespace Sys2Proof.Machine
namespace Num

/-- Biased exponent, bits 30 to 23. -/
def expo (x : F32) : Nat := (x.extractLsb' 23 8).toNat

/-- Fraction, bits 22 to 0. -/
def frac (x : F32) : Nat := (x.extractLsb' 0 23).toNat

/-- The magnitude of a pattern in units of 2^-149 (R12's value formula times 2^149). -/
def mag (x : F32) : Nat :=
  if expo x = 0 then frac x else (2 ^ 23 + frac x) * 2 ^ (expo x - 1)

/-- The value of a pattern in units of 2^-149. -/
def scaled (x : F32) : Int := if x.msb then -(mag x : Int) else (mag x : Int)

/-- The exact rational a pattern denotes (R12). -/
def toRat (x : F32) : Rat := (scaled x : Rat) / (2 : Rat) ^ 149

/-- The integer nearest to `n / d`, ties to even. -/
def rneDiv (n d : Nat) : Nat :=
  if 2 * (n % d) < d then n / d
  else if d < 2 * (n % d) then n / d + 1
  else if n / d % 2 = 0 then n / d
  else n / d + 1

/-- The pattern, without sign, of the binary32 number nearest to `n / d` units of 2^-149. With
`sh = max 0 (log2 (n/d) - 23)` the candidates are the multiples of 2^sh units, and the pattern of
`m * 2^sh` units is `2^23 * sh + m`. Past the largest finite number the pattern is infinity's, which
no rule of the block produces. -/
def rneMag (n d : Nat) : Nat :=
  let sh := Nat.log2 (n / d) - 23
  min (2 ^ 23 * sh + rneDiv n (d * 2 ^ sh)) 0x7F800000

/-- `rne32`: the binary32 number nearest to `num / den`, ties to even; zero is +0.0 (R12). -/
def rne32 (num : Int) (den : Nat) : F32 :=
  let m := rneMag (2 ^ 149 * num.natAbs) den
  if num < 0 ∧ m ≠ 0 then BitVec.ofNat 32 (2 ^ 31 + m) else BitVec.ofNat 32 m

/-- `a - b` as an integer. The difference is taken between the larger and the smaller, so that the
kernel, comparing two such terms, has no literal to count down. -/
def minus (a b : Nat) : Int :=
  if a < b then -((max a b - min a b : Nat) : Int) else ((max a b - min a b : Nat) : Int)

/-- `conv(r) = rne32((17*r - 10920) / 21840)` (R12, R153). -/
def conv (r : BitVec 16) : F32 := rne32 (minus (17 * r.toNat) 10920) 21840

/-- `ema(p, d) = rne32((124*p + d) / 125)` (R12, R173). -/
def ema (p d : F32) : F32 := rne32 (124 * scaled p + scaled d) (125 * 2 ^ 149)

/-- `ge_gate(d)`: `d >= 50` as rationals (R12). -/
def geGate (d : F32) : Bool := decide (50 * 2 ^ 149 ≤ scaled d)

end Num
end Sys2Proof.Machine
end

