-- ==== Sys2Proof/Machine/Operands.lean ====
section
/-! DEFINITION. The operand forms: the channel index and its bound (R60, R61), the value a sample
assembles (R93), the raw value CONVERT reads under either RAW_LATCH (R150, R155), the gate bit FILTER
reads (R170), and the environment's answer to a poll (R80). -/

namespace Sys2Proof.Machine

/-- N_CH, the number of channels (R9, R20). -/
def State.nCh (s : State) : Nat := s.channels.length

/-- `field0 + (field1 << 6) + (field2 << 12)` (R93). -/
def assemble (f0 f1 : BitVec 6) (f2 : BitVec 4) : BitVec 16 :=
  f0.setWidth 16 + (f1.setWidth 16 <<< 6) + (f2.setWidth 16 <<< 12)

/-- The raw value CONVERT reads: the latch, or, where there is none, the assembly of `rawFrame` at
the time CONVERT runs (R150, R155). -/
def ChannelState.rawOperand (p : Params) (c : ChannelState) : BitVec 16 :=
  match p.rawLatch with
  | .atCompletion => c.raw18
  | .atConversion => assemble c.rawFrame0 c.rawFrame1 c.rawFrame2

/-- The gate bit `g` of FILTER's key (R99, R170). -/
def ChannelState.gate (c : ChannelState) : Bool := Num.geGate c.distanceMm

/-- The answers of the byte source of one channel still to come (R40, R80). -/
def State.rxLine (s : State) (ch : Nat) : List (Option Byte) := s.rx.getD ch []

/-- The answer to the next poll of a channel: `none` is no data (R80). -/
def State.pollAnswer (s : State) (ch : Nat) : Option Byte := (s.rxLine ch).headD none

/-- The transmit history: the `writeBytes` events, oldest first (R63). -/
def ExtCall.transmitted : ExtCall → Option (Nat × List Byte)
  | .writeBytes ch bytes => some (ch, bytes)
  | .byteAvailable _ _ => none
  | .readByte _ _ => none
  | .faultInit _ => none
  | .initDone _ => none

/-- The byte sink's history as R63 gives it: a list of `(ch, bytes)`. -/
def State.txHistory (s : State) : List (Nat × List Byte) := s.calls.filterMap ExtCall.transmitted

end Sys2Proof.Machine
end

