-- ==== Sys2Proof/Machine/Flags.lean ====
section
/-! DEFINITION. Counters and flags: the saturating increment (R11) and every flag a rule sets or
clears, one operation each. -/

namespace Sys2Proof.Machine

/-- `sat_inc_W(v)`: `v + 1` below `2^W - 1`, else `v` (R11; assumption log 22). -/
def satInc (w v : Nat) : Nat := if v < 2 ^ w - 1 then v + 1 else v

/-- A framing error is counted (R122, R241). -/
def ChannelState.countFraming (p : Params) (c : ChannelState) : ChannelState :=
  { c with framingErrorCount := satInc p.ctrW c.framingErrorCount }

/-- An error sentinel is flagged and counted (R151, R242). -/
def ChannelState.flagSentinel (p : Params) (c : ChannelState) : ChannelState :=
  { c with errorFlag := true, errorSentinelCount := satInc p.ctrW c.errorSentinelCount }

/-- `newPacketReady` is set (R28, R129). -/
def ChannelState.setPacketReady (c : ChannelState) : ChannelState :=
  { c with newPacketReady := true }

/-- The hand-over of a converted sample: `pendingFilter` set, `newPacketReady` cleared (R196). -/
def ChannelState.handToFilter (c : ChannelState) : ChannelState :=
  { c with pendingFilter := true, newPacketReady := false }

/-- `pendingFilter` is cleared (R197). -/
def ChannelState.clearPendingFilter (c : ChannelState) : ChannelState :=
  { c with pendingFilter := false }

end Sys2Proof.Machine
end

