-- ==== Sys2Proof/Machine/Ops.lean ====
section
/-! DEFINITION. The named operations over the state that every meaning is written with: one setter per
field a meaning writes, the bound-checked access to one channel, the loop over channels, the polls and
the calls of the environment, the draw of a free value, the fetch of the next operation. There is no
memory (R60) and there is no trap entry and no return to write (R240, R248, R249): no operation of the
block saves a position or transfers control. -/

namespace Sys2Proof.Machine

/-- `S.schedState <- st`. -/
def State.setSched (st : SchedState) (s : State) : State := { s with schedState := st }

/-- `S.debounceCounter <- n`. -/
def State.setDebounce (n : Nat) (s : State) : State := { s with debounceCounter := n }

/-- `C <- cs`. -/
def State.setChannels (cs : List ChannelState) (s : State) : State := { s with channels := cs }

/-- The byte source's remaining answers. -/
def State.setRx (rx : List (List (Option Byte))) (s : State) : State := { s with rx := rx }

/-- The readiness check's remaining answers. -/
def State.setInitDoneAnswers (l : List Bool) (s : State) : State := { s with initDoneAnswers := l }

/-- One more call of the block to its environment. -/
def State.log (e : ExtCall) (s : State) : State := { s with calls := s.calls ++ [e] }

/-- The trace still to be executed. -/
def State.setQueue (q : List Cmd) (s : State) : State := { s with queue := q }

/-- A getter returns a value. -/
def State.setGetResult (r : GetResult) (s : State) : State := { s with getResult := some r }

/-- A free value has been drawn. -/
def State.countDraw (s : State) : State := { s with freeCount := s.freeCount + 1 }

/-- Apply `f` to channel `ch`; an index at or above N_CH changes nothing (R61, D15; assumption
log 17). -/
def State.onChannel (ch : Nat) (f : ChannelState → ChannelState) (s : State) : State :=
  if ch < s.nCh then s.setChannels (s.channels.modify ch f) else s

/-- `for ch in 0 .. N_CH-1`, ascending (R13, R74). -/
def State.forChannels (f : Nat → State → State) (s : State) : State :=
  (List.range s.nCh).foldl (fun t ch => f ch t) s

/-- The byte source has answered one poll of a channel: the answer is used up. -/
def State.popRx (ch : Nat) (s : State) : State := s.setRx (s.rx.set ch (s.rxLine ch).tail)

/-- `writeBytes(ch, bytes)` (R63). -/
def State.writeBytes (ch : Nat) (bytes : List Byte) (s : State) : State :=
  s.log (.writeBytes ch bytes)

/-- The answer of `initDone()`: the next one listed, past the list the parameter's, which is true by
default (R194, D13, U6; assumption log 10). -/
def State.initDoneAnswer (s : State) : Bool := s.initDoneAnswers.headD s.params.initDoneRest

/-- The call of `initDone()`: its answer is used up. -/
def State.askInitDone (s : State) : State :=
  (s.setInitDoneAnswers s.initDoneAnswers.tail).log (.initDone s.initDoneAnswer)

/-- The next operation of the trace, and the state with it removed (assumption log 1). -/
def State.fetch (s : State) : Option (Cmd × State) :=
  match s.queue with
  | [] => none
  | c :: rest => some (c, s.setQueue rest)

/-- A reserved operation code: no register changes, no primitive is called, nothing is returned
(R225). -/
def State.reservedOp (s : State) : State := s

/-- The part of a command's key that is a register of the machine, put into channel 0 or the
scheduler: `rxState` for format W, `schedState` for S, the raw value for C, the gate bit for G
(R99; assumption log 6). -/
def State.selectKey (c : Cmd) (s : State) : State :=
  match c.format with
  | .W =>
    match rxOfCode (c.key.extractLsb' 8 2) with
    | some rx => s.onChannel c.ch fun d => { d with rxState := rx }
    | none => s
  | .S =>
    match schedOfCode (c.key.extractLsb' 0 3) with
    | some st => s.setSched st
    | none => s
  | .C =>
    s.onChannel c.ch fun d =>
      match s.params.rawLatch with
      | .atCompletion => { d with raw18 := c.key }
      | .atConversion =>
        { d with
          rawFrame0 := c.key.extractLsb' 0 6
          rawFrame1 := c.key.extractLsb' 6 6
          rawFrame2 := c.key.extractLsb' 12 4 }
  | .G =>
    s.onChannel c.ch fun d =>
      if d.gate = c.key.getLsbD 0 then d
      else { d with distanceMm := if c.key.getLsbD 0 then Config.distInit else Config.filtInit }
  | .OP => s

/-- A command stored as the next operation of the trace, with the key register that selects it
(assumption log 6). -/
def State.placeCmd (c : Cmd) (s : State) : State := (s.selectKey c).setQueue (c :: s.queue)

/-- The state with a table word stored where `step` fetches next (assumption log 5 and 6). -/
def State.placeTableWord (nbits w : Nat) (s : State) : State :=
  match tableCmd nbits w with
  | none => s
  | some c => s.placeCmd c

end Sys2Proof.Machine
end

