-- ==== Sys2Proof/Machine/HostOps.lean ====
section
/-! DEFINITION. TICK, INIT and the getters (44_host_ops.md). -/

namespace Sys2Proof.Machine

/-- TICK: the unconditional, atomic, saturating increment (R220, R77). -/
def execTick (s : State) : Host.Outcome State Fault Refusal :=
  .next (s.setDebounce (satInc s.params.debW s.debounceCounter))

/-- INIT: the block's state is created anew; the fault-tree module is called once per channel,
ascending, and what it leaves is FAULT_INIT (R221, R64). -/
def execInit (s : State) : Host.Outcome State Fault Refusal :=
  .next
    ((((s.setSched .reset).setDebounce 0).forChannels fun ch t => t.log (.faultInit ch)).setChannels
      (List.replicate s.nCh (ChannelState.reset s.params.faultInit)))

/-- GETDIST: `distanceMm`, or for a bad index a free value; no register changes (R222, D14). -/
def execGetDist (ch : Nat) (s : State) : Host.Outcome State Fault Refusal :=
  match s.channels[ch]? with
  | some c => .next (s.setGetResult (.real c.distanceMm))
  | none => .next (s.countDraw.setGetResult (.real (Config.freeReal s.freeCount)))

/-- GETERR: `errorFlag`, or for a bad index a free value; no register changes (R223, D14). -/
def execGetErr (ch : Nat) (s : State) : Host.Outcome State Fault Refusal :=
  match s.channels[ch]? with
  | some c => .next (s.setGetResult (.bool c.errorFlag))
  | none => .next (s.countDraw.setGetResult (.bool (Config.freeBool s.freeCount)))

end Sys2Proof.Machine
end

