-- ==== Sys2Proof/Machine/Conversion.lean ====
section
/-! DEFINITION. The error-sentinel detector and the value conversion (41_conversion.md): the two arms
on one channel, CONVERT, and the meaning of the two rows of format C, guarded by their key (R99;
assumption log 4). -/

namespace Sys2Proof.Machine

/-- CONVERT.OK on a channel with raw value `r` (R152). -/
def ChannelState.convertOk (r : BitVec 16) (c : ChannelState) : ChannelState :=
  { c with errorFlag := false, distanceMm := Num.conv r, newDistanceAvailable := true }

/-- CONVERT on one channel: ERR on the sentinel, else OK (R150, R151, R152). -/
def ChannelState.convert (p : Params) (c : ChannelState) : ChannelState :=
  if c.rawOperand p = Config.errSentinel then c.flagSentinel p else c.convertOk (c.rawOperand p)

/-- CONVERT.ERR: acts when the channel's raw value is the sentinel (R151). -/
def execConvertErr (ch : Nat) (s : State) : Host.Outcome State Fault Refusal :=
  .next (s.onChannel ch fun c =>
    if c.rawOperand s.params = Config.errSentinel then c.flagSentinel s.params else c)

/-- CONVERT.OK: acts when the channel's raw value is the row's key and no sentinel (R152). -/
def execConvertOk (ch : Nat) (raw : BitVec 16) (s : State) : Host.Outcome State Fault Refusal :=
  .next (s.onChannel ch fun c =>
    if c.rawOperand s.params = raw ∧ raw ≠ Config.errSentinel then c.convertOk raw else c)

/-- CONVERT: neither tests nor clears a one-shot flag; a bad index is a no-op (R150, R61, D15). -/
def execConvert (ch : Nat) (s : State) : Host.Outcome State Fault Refusal :=
  .next (s.onChannel ch (ChannelState.convert s.params))

end Sys2Proof.Machine
end

