-- ==== Sys2Proof/Machine/Decoder.lean ====
section
/-! DEFINITION. The Channel Decoder (40_decoder.md): the effect of each transition on one channel, FEED,
and the meaning of the twelve rows of format W. A row is a guarded action of the transition table: it
acts on its channel when the channel's `rxState` is the one in its key, and is not selected, so does
nothing, otherwise (R91; assumption log 4). -/

namespace Sys2Proof.Machine

/-- RX1.ACC on a channel: field0 is stored (R121). -/
def ChannelState.accept1 (d : BitVec 6) (c : ChannelState) : ChannelState :=
  { c with rawFrame0 := d, rxState := .awaitingByte2 }

/-- RX2.ACC on a channel: field1 is stored (R125). -/
def ChannelState.accept2 (d : BitVec 6) (c : ChannelState) : ChannelState :=
  { c with rawFrame1 := d, rxState := .awaitingByte3 }

/-- The assembly of a completed sample, where RAW_LATCH places it at completion; under
`at_conversion` the line is absent (R129, R155). -/
def ChannelState.latch (p : Params) (c : ChannelState) : ChannelState :=
  match p.rawLatch with
  | .atCompletion => { c with raw18 := assemble c.rawFrame0 c.rawFrame1 c.rawFrame2 }
  | .atConversion => c

/-- RX3.ACC on a channel: field2 is stored, the sample assembled, the packet flagged (R129). -/
def ChannelState.accept3 (p : Params) (d : BitVec 4) (c : ChannelState) : ChannelState :=
  { (({ c with rawFrame2 := d } : ChannelState).latch p).setPacketReady with
    rxState := .awaitingByte1 }

/-- A reject in AwaitingByte2 or AwaitingByte3: the sample in progress is dropped, nothing is counted
(R126, R130). -/
def ChannelState.desync (c : ChannelState) : ChannelState := { c with rxState := .awaitingByte1 }

/-- FEED on one channel: the transition selected by (`rxState`, `b & 0xC0`) (R91, R120). -/
def ChannelState.feed (p : Params) (b : Byte) (c : ChannelState) : ChannelState :=
  match c.rxState, tagOf b with
  | .awaitingByte1, .t00 => c.accept1 (field0Of b)
  | .awaitingByte1, .t01 => c.countFraming p
  | .awaitingByte1, .t10 => c.countFraming p
  | .awaitingByte1, .t11 => c.countFraming p
  | .awaitingByte2, .t00 => c.desync
  | .awaitingByte2, .t01 => c.accept2 (field1Of b)
  | .awaitingByte2, .t10 => c.desync
  | .awaitingByte2, .t11 => c.desync
  | .awaitingByte3, .t00 => c.desync
  | .awaitingByte3, .t01 => c.desync
  | .awaitingByte3, .t10 => c.accept3 p (field2Of b)
  | .awaitingByte3, .t11 => c.desync

/-- A row of format W on a channel: `f` when the channel is in the row's decoder position. -/
def ChannelState.whenRx (rx : RxState) (f : ChannelState → ChannelState) (c : ChannelState) :
    ChannelState :=
  if c.rxState = rx then f c else c

/-- RX1.ACC (R121). -/
def execRx1Acc (ch : Nat) (d : BitVec 6) (s : State) : Host.Outcome State Fault Refusal :=
  .next (s.onChannel ch (ChannelState.whenRx .awaitingByte1 (ChannelState.accept1 d)))

/-- RX1.REJ01 (R122). -/
def execRx1Rej01 (ch : Nat) (_x : BitVec 6) (s : State) : Host.Outcome State Fault Refusal :=
  .next (s.onChannel ch (ChannelState.whenRx .awaitingByte1 (ChannelState.countFraming s.params)))

/-- RX1.REJ10 (R123). -/
def execRx1Rej10 (ch : Nat) (_x : BitVec 6) (s : State) : Host.Outcome State Fault Refusal :=
  .next (s.onChannel ch (ChannelState.whenRx .awaitingByte1 (ChannelState.countFraming s.params)))

/-- RX1.REJ11 (R124). -/
def execRx1Rej11 (ch : Nat) (_x : BitVec 6) (s : State) : Host.Outcome State Fault Refusal :=
  .next (s.onChannel ch (ChannelState.whenRx .awaitingByte1 (ChannelState.countFraming s.params)))

/-- RX2.ACC (R125). -/
def execRx2Acc (ch : Nat) (d : BitVec 6) (s : State) : Host.Outcome State Fault Refusal :=
  .next (s.onChannel ch (ChannelState.whenRx .awaitingByte2 (ChannelState.accept2 d)))

/-- RX2.REJ00 (R126). -/
def execRx2Rej00 (ch : Nat) (_x : BitVec 6) (s : State) : Host.Outcome State Fault Refusal :=
  .next (s.onChannel ch (ChannelState.whenRx .awaitingByte2 ChannelState.desync))

/-- RX2.REJ10 (R127). -/
def execRx2Rej10 (ch : Nat) (_x : BitVec 6) (s : State) : Host.Outcome State Fault Refusal :=
  .next (s.onChannel ch (ChannelState.whenRx .awaitingByte2 ChannelState.desync))

/-- RX2.REJ11 (R128). -/
def execRx2Rej11 (ch : Nat) (_x : BitVec 6) (s : State) : Host.Outcome State Fault Refusal :=
  .next (s.onChannel ch (ChannelState.whenRx .awaitingByte2 ChannelState.desync))

/-- RX3.ACC; the reserved bits are ignored (R129, R96). -/
def execRx3Acc (ch : Nat) (_rr : BitVec 2) (d : BitVec 4) (s : State) :
    Host.Outcome State Fault Refusal :=
  .next (s.onChannel ch (ChannelState.whenRx .awaitingByte3 (ChannelState.accept3 s.params d)))

/-- RX3.REJ00 (R130). -/
def execRx3Rej00 (ch : Nat) (_x : BitVec 6) (s : State) : Host.Outcome State Fault Refusal :=
  .next (s.onChannel ch (ChannelState.whenRx .awaitingByte3 ChannelState.desync))

/-- RX3.REJ01 (R131). -/
def execRx3Rej01 (ch : Nat) (_x : BitVec 6) (s : State) : Host.Outcome State Fault Refusal :=
  .next (s.onChannel ch (ChannelState.whenRx .awaitingByte3 ChannelState.desync))

/-- RX3.REJ11 (R132). -/
def execRx3Rej11 (ch : Nat) (_x : BitVec 6) (s : State) : Host.Outcome State Fault Refusal :=
  .next (s.onChannel ch (ChannelState.whenRx .awaitingByte3 ChannelState.desync))

/-- FEED: exactly one transition on one channel; a bad index is a silent no-op (R120, R61). -/
def execFeed (ch : Nat) (b : Byte) (s : State) : Host.Outcome State Fault Refusal :=
  .next (s.onChannel ch (ChannelState.feed s.params b))

end Sys2Proof.Machine
end

