-- ==== Sys2Proof/Machine/Filter.lean ====
section
/-! DEFINITION. The Channel Filter (42_filter.md): the update on one channel, FILTER, and the meaning of
the two rows of format G, guarded by the gate bit (R99; assumption log 4). The recurrence is C4's: the
register fed back is loaded with the raw distance (assumption log 24). -/

namespace Sys2Proof.Machine

/-- FILTER.UPD on a channel (R172). -/
def ChannelState.filterUpd (c : ChannelState) : ChannelState :=
  { c with
    filteredValue := Num.ema c.previousValue c.distanceMm
    previousValue := c.distanceMm }

/-- FILTER.HOLD on a channel: nothing is written (R171). -/
def ChannelState.filterHold (c : ChannelState) : ChannelState := c

/-- FILTER on one channel: HOLD at or above the gate, else UPD (R170). -/
def ChannelState.filter (c : ChannelState) : ChannelState :=
  if c.gate then c.filterHold else c.filterUpd

/-- FILTER.HOLD: acts when the gate bit is 1 (R171). -/
def execFilterHold (ch : Nat) (s : State) : Host.Outcome State Fault Refusal :=
  .next (s.onChannel ch fun c => if c.gate then c.filterHold else c)

/-- FILTER.UPD: acts when the gate bit is 0 (R172). -/
def execFilterUpd (ch : Nat) (s : State) : Host.Outcome State Fault Refusal :=
  .next (s.onChannel ch fun c => if c.gate then c else c.filterUpd)

/-- FILTER: neither tests nor clears `pendingFilter`; a bad index is a no-op (R170, R61, D15). -/
def execFilter (ch : Nat) (s : State) : Host.Outcome State Fault Refusal :=
  .next (s.onChannel ch ChannelState.filter)

end Sys2Proof.Machine
end

