-- ==== Sys2Proof/Machine/Scheduler.lean ====
section
/-! DEFINITION. The Subsystem Scheduler (43_scheduler.md): the action and the transition of each of the
seven steps, the meaning of the seven rows of format S, guarded by `schedState` (R99; assumption log 4),
and PROCESS under either PASS_MODE (R190, R201). -/

namespace Sys2Proof.Machine

/-- S.RESET: the debounce counter is zeroed (R191). -/
def State.stepReset (s : State) : State := (s.setDebounce 0).setSched .waitLaserReset

/-- S.WAITLASERRESET: left when the counter exceeds 50 (R192). -/
def State.stepWaitLaserReset (s : State) : State :=
  if Config.debounceThreshold < s.debounceCounter then s.setSched .initLaser else s

/-- S.INITLASER: the mode command goes out on every channel (R193). -/
def State.stepInitLaser (s : State) : State :=
  (s.forChannels fun ch t => t.writeBytes ch t.params.initCmd).setSched .waitInitDone

/-- S.WAITINITDONE: left when the readiness check answers true (R194). -/
def State.stepWaitInitDone (s : State) : State :=
  if s.initDoneAnswer then s.askInitDone.setSched .checkNewData else s.askInitDone

/-- One poll of one channel: `byteAvailable`, and where it answers true, `readByte` and FEED
(R195, R62). -/
def State.pollChannel (ch : Nat) (s : State) : State :=
  match s.pollAnswer ch with
  | none => (s.popRx ch).log (.byteAvailable ch false)
  | some b =>
    (((s.popRx ch).log (.byteAvailable ch true)).log (.readByte ch b)).onChannel ch
      (ChannelState.feed s.params b)

/-- The drain: BURST iterations outside, channels ascending inside (R195, R74). -/
def State.drain (s : State) : State :=
  (List.range Config.burst).foldl (fun t _ => t.forChannels State.pollChannel) s

/-- S.CHECKNEWDATA (R195). -/
def State.stepCheckNewData (s : State) : State := s.drain.setSched .checkNewPacket

/-- The CheckNewPacket action on one channel (R196). -/
def ChannelState.checkPacket (p : Params) (c : ChannelState) : ChannelState :=
  if c.newPacketReady then (c.convert p).handToFilter else c

/-- S.CHECKNEWPACKET (R196). -/
def State.stepCheckNewPacket (s : State) : State :=
  (s.forChannels fun ch t => t.onChannel ch (ChannelState.checkPacket t.params)).setSched
    .filterPacket

/-- The FilterPacket action on one channel (R197). -/
def ChannelState.filterPacket (c : ChannelState) : ChannelState :=
  if c.pendingFilter then c.filter.clearPendingFilter else c

/-- S.FILTERPACKET (R197). -/
def State.stepFilterPacket (s : State) : State :=
  (s.forChannels fun ch t => t.onChannel ch ChannelState.filterPacket).setSched .checkNewData

/-- A row of format S: `f` when the scheduler is in the row's state. -/
def State.whenSched (st : SchedState) (f : State → State) (s : State) : State :=
  if s.schedState = st then f s else s

/-- S.RESET (R191). -/
def execSReset (s : State) : Host.Outcome State Fault Refusal :=
  .next (s.whenSched .reset State.stepReset)

/-- S.WAITLASERRESET (R192). -/
def execSWaitLaserReset (s : State) : Host.Outcome State Fault Refusal :=
  .next (s.whenSched .waitLaserReset State.stepWaitLaserReset)

/-- S.INITLASER (R193). -/
def execSInitLaser (s : State) : Host.Outcome State Fault Refusal :=
  .next (s.whenSched .initLaser State.stepInitLaser)

/-- S.WAITINITDONE (R194). -/
def execSWaitInitDone (s : State) : Host.Outcome State Fault Refusal :=
  .next (s.whenSched .waitInitDone State.stepWaitInitDone)

/-- S.CHECKNEWDATA (R195). -/
def execSCheckNewData (s : State) : Host.Outcome State Fault Refusal :=
  .next (s.whenSched .checkNewData State.stepCheckNewData)

/-- S.CHECKNEWPACKET (R196). -/
def execSCheckNewPacket (s : State) : Host.Outcome State Fault Refusal :=
  .next (s.whenSched .checkNewPacket State.stepCheckNewPacket)

/-- S.FILTERPACKET (R197). -/
def execSFilterPacket (s : State) : Host.Outcome State Fault Refusal :=
  .next (s.whenSched .filterPacket State.stepFilterPacket)

/-- PROCESS in CheckNewData: one state, or the three data states in one invocation (R190, R201;
assumption log 23). -/
def State.processCheckNewData (s : State) : State :=
  match s.params.passMode with
  | .oneState => s.stepCheckNewData
  | .fused => s.stepCheckNewData.stepCheckNewPacket.stepFilterPacket

/-- PROCESS: the step `schedState` selects on entry (R190). -/
def State.process (s : State) : State :=
  match s.schedState with
  | .reset => s.stepReset
  | .waitLaserReset => s.stepWaitLaserReset
  | .initLaser => s.stepInitLaser
  | .waitInitDone => s.stepWaitInitDone
  | .checkNewData => s.processCheckNewData
  | .checkNewPacket => s.stepCheckNewPacket
  | .filterPacket => s.stepFilterPacket

/-- PROCESS (R190). -/
def execProcess (s : State) : Host.Outcome State Fault Refusal := .next s.process

end Sys2Proof.Machine
end

