-- ==== Sys2Proof/Machine/Dispatch.lean ====
section
/-! DEFINITION. One arm per instruction: the meaning it calls. -/

namespace Sys2Proof.Machine

def exec (i : Instr) (s : State) : Host.Outcome State Fault Refusal :=
  match i with
  | .rx1Acc ch d => Sys2Proof.Machine.execRx1Acc ch d s
  | .rx1Rej01 ch x => Sys2Proof.Machine.execRx1Rej01 ch x s
  | .rx1Rej10 ch x => Sys2Proof.Machine.execRx1Rej10 ch x s
  | .rx1Rej11 ch x => Sys2Proof.Machine.execRx1Rej11 ch x s
  | .rx2Acc ch d => Sys2Proof.Machine.execRx2Acc ch d s
  | .rx2Rej00 ch x => Sys2Proof.Machine.execRx2Rej00 ch x s
  | .rx2Rej10 ch x => Sys2Proof.Machine.execRx2Rej10 ch x s
  | .rx2Rej11 ch x => Sys2Proof.Machine.execRx2Rej11 ch x s
  | .rx3Acc ch rr d => Sys2Proof.Machine.execRx3Acc ch rr d s
  | .rx3Rej00 ch x => Sys2Proof.Machine.execRx3Rej00 ch x s
  | .rx3Rej01 ch x => Sys2Proof.Machine.execRx3Rej01 ch x s
  | .rx3Rej11 ch x => Sys2Proof.Machine.execRx3Rej11 ch x s
  | .sReset => Sys2Proof.Machine.execSReset s
  | .sWaitLaserReset => Sys2Proof.Machine.execSWaitLaserReset s
  | .sInitLaser => Sys2Proof.Machine.execSInitLaser s
  | .sWaitInitDone => Sys2Proof.Machine.execSWaitInitDone s
  | .sCheckNewData => Sys2Proof.Machine.execSCheckNewData s
  | .sCheckNewPacket => Sys2Proof.Machine.execSCheckNewPacket s
  | .sFilterPacket => Sys2Proof.Machine.execSFilterPacket s
  | .convertErr ch => Sys2Proof.Machine.execConvertErr ch s
  | .convertOk ch raw => Sys2Proof.Machine.execConvertOk ch raw s
  | .filterHold ch => Sys2Proof.Machine.execFilterHold ch s
  | .filterUpd ch => Sys2Proof.Machine.execFilterUpd ch s
  | .init => Sys2Proof.Machine.execInit s
  | .tick => Sys2Proof.Machine.execTick s
  | .process => Sys2Proof.Machine.execProcess s
  | .getDist ch => Sys2Proof.Machine.execGetDist ch s
  | .getErr ch => Sys2Proof.Machine.execGetErr ch s
  | .feed ch b => Sys2Proof.Machine.execFeed ch b s
  | .convert ch => Sys2Proof.Machine.execConvert ch s
  | .filter ch => Sys2Proof.Machine.execFilter ch s

end Sys2Proof.Machine
end

