-- ==== Sys2Proof/Machine/Step.lean ====
section
/-! DEFINITION. One step: the next operation of the trace is fetched, decoded and executed (R73, R71:
operations are atomic and form one total order; assumption log 1 and 25). -/

namespace Sys2Proof.Machine

/-- One step. Where nothing has been issued the block does nothing and loses nothing (R256); a
reserved operation code has no effect (R225); a key without a row is refused by name (R96, U5). -/
def step (s : State) : Host.Outcome State Fault Refusal :=
  match s.fetch with
  | none => .next s
  | some (c, t) =>
    match decode c with
    | .ok i => exec i t
    | .error (.reservedOp _) => .next t.reservedOp
    | .error (.noRow f k) => .refused (.noSuchKey f k)

/-- The state with a table word stored where `step` fetches its next instruction (the host's name;
assumption log 5 and 6). -/
def State.withFetchWord (s : State) (nbits w : Nat) : State := s.placeTableWord nbits w

end Sys2Proof.Machine
end

