-- ==== Sys2Proof/Safety.lean ====
section
/-! DEFINITION. The terms in which claims are stated: runs of several operations, the invariants of the
machine (R37, R38), the scheduler-only environment (R291), the two issuing contexts (R251), one lane of
the machine (R202), and what it is for a byte to be accepted or to complete a sample (R15). -/

namespace Sys2Proof.Machine

/-- Several operations one after the other, stopping at the first that does not answer a next
state. -/
def execAll : List Instr → State → Host.Outcome State Fault Refusal
  | [], s => .next s
  | i :: is, s =>
    match exec i s with
    | .next t => execAll is t
    | .fault r => .fault r
    | .refused r => .refused r

/-- `distanceMm` and its latch agree: still DIST_INIT_F with the latch clear, or the conversion of
some value that is not the sentinel, with the latch set (R24, R38(h)). -/
def ChannelState.DistanceInv (c : ChannelState) : Prop :=
  (c.distanceMm = Config.distInit ∧ c.newDistanceAvailable = false) ∨
    (c.newDistanceAvailable = true ∧
      ∃ r : BitVec 16, r ≠ Config.errSentinel ∧ c.distanceMm = Num.conv r)

/-- A value `previousValue` can hold: 0.0 or an in-range conversion (R26). -/
def InRangeSample (v : F32) : Prop :=
  v = Config.filtInit ∨
    ∃ r : BitVec 16, r ≠ Config.errSentinel ∧ v = Num.conv r ∧ Num.geGate v = false

/-- The two filter registers: both 0.0, or the recurrence applied to two values the filter can have
seen (R38(i), R174). -/
def ChannelState.FilterInv (c : ChannelState) : Prop :=
  (c.previousValue = Config.filtInit ∧ c.filteredValue = Config.filtInit) ∨
    (InRangeSample c.previousValue ∧
      ∃ p, InRangeSample p ∧ c.filteredValue = Num.ema p c.previousValue)

/-- The invariant of one channel (R37, R38(g), R38(h), R38(i)). -/
def ChannelState.Inv (p : Params) (c : ChannelState) : Prop :=
  c.DistanceInv ∧ c.FilterInv ∧ (c.errorFlag = true → 1 ≤ c.errorSentinelCount) ∧
    c.errorSentinelCount ≤ 2 ^ p.ctrW - 1 ∧ c.framingErrorCount ≤ 2 ^ p.ctrW - 1

/-- The invariant of the machine: at least one channel (R9), counters wide enough to count and within
their widths (R31, R32, R35), every channel's invariant. -/
def State.Inv (s : State) : Prop :=
  1 ≤ s.nCh ∧ 1 ≤ s.params.ctrW ∧ s.debounceCounter ≤ 2 ^ s.params.debW - 1 ∧
    ∀ c ∈ s.channels, c.Inv s.params

/-- The operation is INIT, TICK, PROCESS, GETDIST or GETERR: no direct entry point (R291). -/
def schedulerOnly (c : Cmd) : Bool :=
  c.format == .OP && (c.key == 1 || c.key == 2 || c.key == 3 || c.key == 4 || c.key == 5)

/-- The one-shot flags by scheduler state, under scheduler-only operation (R38(f), R200). -/
def State.PipelineInv (s : State) : Prop :=
  match s.schedState with
  | .checkNewPacket => ∀ c ∈ s.channels, c.pendingFilter = false
  | .filterPacket => ∀ c ∈ s.channels, c.newPacketReady = false
  | .reset => ∀ c ∈ s.channels, c.newPacketReady = false ∧ c.pendingFilter = false
  | .waitLaserReset => ∀ c ∈ s.channels, c.newPacketReady = false ∧ c.pendingFilter = false
  | .initLaser => ∀ c ∈ s.channels, c.newPacketReady = false ∧ c.pendingFilter = false
  | .waitInitDone => ∀ c ∈ s.channels, c.newPacketReady = false ∧ c.pendingFilter = false
  | .checkNewData => ∀ c ∈ s.channels, c.newPacketReady = false ∧ c.pendingFilter = false

/-- The two execution contexts (R251). -/
inductive Context where
  | main
  | tick
  deriving DecidableEq, Repr

/-- Which context issues an instruction: TICK is the tick context's, all else the main context's
(R7, R251). -/
def contextOf (i : Instr) : Context := if i = .tick then .tick else .main

/-- Two states agree on lane `k`: that channel's registers and receive stream, and what all lanes
share (R202). -/
def SameLane (k : Nat) (s t : State) : Prop :=
  s.nCh = t.nCh ∧ s.channels[k]? = t.channels[k]? ∧ s.rxLine k = t.rxLine k ∧
    s.schedState = t.schedState ∧ s.debounceCounter = t.debounceCounter ∧ s.params = t.params ∧
    s.initDoneAnswers = t.initDoneAnswers

/-- The byte has the tag the decoder position expects (R15, R91). -/
def Accepts (rx : RxState) (b : Byte) : Prop :=
  match rx with
  | .awaitingByte1 => b &&& 0xC0 = 0x00
  | .awaitingByte2 => b &&& 0xC0 = 0x40
  | .awaitingByte3 => b &&& 0xC0 = 0x80

/-- Feeding the byte to the channel completes a sample (R15, R129). -/
def CompletesAt (s : State) (ch : Nat) (b : Byte) : Prop :=
  ∃ c, s.channels[ch]? = some c ∧ c.rxState = .awaitingByte3 ∧ Accepts .awaitingByte3 b

/-- What the polls of one channel in one burst iteration call, given the answer (R195). -/
def pollCalls (ch : Nat) (answer : Option Byte) : List ExtCall :=
  match answer with
  | none => [.byteAvailable ch false]
  | some b => [.byteAvailable ch true, .readByte ch b]

end Sys2Proof.Machine
end

