-- ==== Sys2Proof/Certificates/Slice0/Obligations.lean ====
section
/-! DEFINITION. The statements for the provers, taken from the numbered rules of the spec. A result
statement is an equation `exec i s = next t` under hypotheses on the state and the operands alone, with
`t` written as an update of `s`: it says the result, that the instruction completes, and its whole frame
(every field of State not named in `t` is as it was). There is no memory (R60), so no frame speaks of
one. `satInc w v` is the rule's `sat_inc_W(v)` (R11). -/

open Sys2Proof Sys2Proof.Machine

/-! ### Encodings -/

/-- Decode and encode agree (R91, R97, R99): the decoder reads every well-formed instruction back from
its encoding, every operand at every value. -/
def Obligations.DecodeOfEncodeIsTheInstruction : Prop :=
  ∀ i : Instr, i.wellFormed = true → decode (encode i) = .ok i

/-- Each key has one meaning (R99): what the decoder reads is well-formed and encodes to the key it was
read from. -/
def Obligations.EncodeOfDecodeKeepsTheKey : Prop :=
  ∀ (c : Cmd) (i : Instr), decode c = .ok i →
    i.wellFormed = true ∧ (encode i).format = c.format ∧ (encode i).key = c.key

/-- The decoder selects the first matching row of the opcode table, and rejects a key exactly where no
row matches (R99; the table's order matters for format C only). -/
def Obligations.DecoderFollowsTheOpcodeTable : Prop :=
  ∀ c : Cmd, c.key.toNat < 2 ^ c.format.width →
    (match decode c with
      | .ok i => firstRow c.format c.key = some i.row
      | .error _ => firstRow c.format c.key = none)

/-- A few words written out from R90, R95, R97 and R99 decode to what they stand for: a first byte in
AwaitingByte1, a third byte with both reserved bits set in AwaitingByte3, the scheduler code of
CheckNewData, the sentinel and its neighbour, the gate bit, the code of FEED. -/
def Obligations.WordsOfTheSpecDecode : Prop :=
  decode ⟨.W, 0b0000000101, 1, 0⟩ = .ok (.rx1Acc 1 5) ∧
    decode ⟨.W, 0b1010110111, 0, 0⟩ = .ok (.rx3Acc 0 0b11 7) ∧
    decode ⟨.S, 0b100, 0, 0⟩ = .ok .sCheckNewData ∧
    decode ⟨.C, 0xFFBB, 0, 0⟩ = .ok (.convertErr 0) ∧
    decode ⟨.C, 0xFFBC, 0, 0⟩ = .ok (.convertOk 0 65468) ∧
    decode ⟨.G, 1, 0, 0⟩ = .ok (.filterHold 0) ∧
    decode ⟨.OP, 0x8, 2, 0x3B⟩ = .ok (.feed 2 0x3B)

/-- R91: the transition is selected by (`rxState`, `b & 0xC0`), one row of the opcode table for each of
the twelve pairs, the whole row compared. -/
def Obligations.TransitionTableSelectsByStateAndTag : Prop :=
  ∀ (ch : Nat) (b : Byte),
    (b &&& 0xC0 = 0x00 →
      (wireRow .awaitingByte1 ch b).row = ⟨.W, 0x000, 0x3C0⟩ ∧
        (wireRow .awaitingByte2 ch b).row = ⟨.W, 0x100, 0x3C0⟩ ∧
        (wireRow .awaitingByte3 ch b).row = ⟨.W, 0x200, 0x3C0⟩) ∧
    (b &&& 0xC0 = 0x40 →
      (wireRow .awaitingByte1 ch b).row = ⟨.W, 0x040, 0x3C0⟩ ∧
        (wireRow .awaitingByte2 ch b).row = ⟨.W, 0x140, 0x3C0⟩ ∧
        (wireRow .awaitingByte3 ch b).row = ⟨.W, 0x240, 0x3C0⟩) ∧
    (b &&& 0xC0 = 0x80 →
      (wireRow .awaitingByte1 ch b).row = ⟨.W, 0x080, 0x3C0⟩ ∧
        (wireRow .awaitingByte2 ch b).row = ⟨.W, 0x180, 0x3C0⟩ ∧
        (wireRow .awaitingByte3 ch b).row = ⟨.W, 0x280, 0x3C0⟩) ∧
    (b &&& 0xC0 = 0xC0 →
      (wireRow .awaitingByte1 ch b).row = ⟨.W, 0x0C0, 0x3C0⟩ ∧
        (wireRow .awaitingByte2 ch b).row = ⟨.W, 0x1C0, 0x3C0⟩ ∧
        (wireRow .awaitingByte3 ch b).row = ⟨.W, 0x2C0, 0x3C0⟩)

/-- R93: `field0 + (field1 << 6) + (field2 << 12)` is the concatenation of the fields and the exact
integer, so it is at most 65535 and no carry occurs. -/
def Obligations.AssemblyIsTheConcatenation : Prop :=
  ∀ (f0 f1 : BitVec 6) (f2 : BitVec 4),
    assemble f0 f1 f2 = f2 ++ f1 ++ f0 ∧
      (assemble f0 f1 f2).toNat = f0.toNat + f1.toNat * 2 ^ 6 + f2.toNat * 2 ^ 12 ∧
      (assemble f0 f1 f2).toNat ≤ 65535

/-! ### The decoder -/

/-- R121: an accepted first byte. -/
def Obligations.FirstByteIsAccepted : Prop :=
  ∀ (s : State) (ch : Nat) (c : ChannelState) (d : BitVec 6),
    s.channels[ch]? = some c → c.rxState = .awaitingByte1 →
      exec (.rx1Acc ch d) s =
        .next { s with
          channels := s.channels.set ch { c with rawFrame0 := d, rxState := .awaitingByte2 } }

/-- R122, R123, R124: a reject in AwaitingByte1 counts one framing error, saturating, and does nothing
else, whatever the ignored bits. -/
def Obligations.FramingErrorsAreCounted : Prop :=
  ∀ (s : State) (ch : Nat) (c : ChannelState) (x : BitVec 6) (i : Instr),
    s.channels[ch]? = some c → c.rxState = .awaitingByte1 →
      i = .rx1Rej01 ch x ∨ i = .rx1Rej10 ch x ∨ i = .rx1Rej11 ch x →
        exec i s =
          .next { s with
            channels := s.channels.set ch
              { c with
                framingErrorCount :=
                  if c.framingErrorCount < 2 ^ s.params.ctrW - 1 then c.framingErrorCount + 1
                  else c.framingErrorCount } }

/-- R125: an accepted second byte. -/
def Obligations.SecondByteIsAccepted : Prop :=
  ∀ (s : State) (ch : Nat) (c : ChannelState) (d : BitVec 6),
    s.channels[ch]? = some c → c.rxState = .awaitingByte2 →
      exec (.rx2Acc ch d) s =
        .next { s with
          channels := s.channels.set ch { c with rawFrame1 := d, rxState := .awaitingByte3 } }

/-- R126, R127, R128, R130, R131, R132: a reject in AwaitingByte2 or AwaitingByte3 returns to
AwaitingByte1, counts nothing and sets no flag. -/
def Obligations.DesyncDropsTheSample : Prop :=
  ∀ (s : State) (ch : Nat) (c : ChannelState) (x : BitVec 6) (i : Instr),
    s.channels[ch]? = some c →
      (c.rxState = .awaitingByte2 ∧
          (i = .rx2Rej00 ch x ∨ i = .rx2Rej10 ch x ∨ i = .rx2Rej11 ch x)) ∨
        (c.rxState = .awaitingByte3 ∧
          (i = .rx3Rej00 ch x ∨ i = .rx3Rej01 ch x ∨ i = .rx3Rej11 ch x)) →
        exec i s =
          .next { s with channels := s.channels.set ch { c with rxState := .awaitingByte1 } }

/-- R129, R155: an accepted third byte completes the sample; `raw18` is written where RAW_LATCH is
`at_completion` (the spec's own decision D4), and the reserved bits play no part. -/
def Obligations.ThirdByteCompletesTheSample : Prop :=
  ∀ (s : State) (ch : Nat) (c : ChannelState) (rr : BitVec 2) (d : BitVec 4),
    s.channels[ch]? = some c → c.rxState = .awaitingByte3 →
      exec (.rx3Acc ch rr d) s =
        .next { s with
          channels := s.channels.set ch
            { c with
              rawFrame2 := d
              raw18 :=
                if s.params.rawLatch = .atCompletion then d ++ c.rawFrame1 ++ c.rawFrame0
                else c.raw18
              newPacketReady := true
              rxState := .awaitingByte1 } }

/-- R120, R91: FEED with the source's table written out on the byte: accept by `b & 0xC0`, store by
`b & 0x3F` and `b & 0x0F`. An index at or above N_CH is a silent no-op. The clause on `raw18` is not in
the source's table: where the value is latched is the spec's own decision D4 (R129, R155; assumption
log 3 and 15). -/
def Obligations.FeedFollowsTheSourceTable : Prop :=
  ∀ (s : State) (ch : Nat) (b : Byte),
    (s.nCh ≤ ch → exec (.feed ch b) s = .next s) ∧
    ∀ c : ChannelState, s.channels[ch]? = some c →
      exec (.feed ch b) s =
        .next { s with
          channels := s.channels.set ch
            (match c.rxState with
              | .awaitingByte1 =>
                if b &&& 0xC0 = 0x00 then
                  { c with rawFrame0 := (b &&& 0x3F).setWidth 6, rxState := .awaitingByte2 }
                else { c with framingErrorCount := satInc s.params.ctrW c.framingErrorCount }
              | .awaitingByte2 =>
                if b &&& 0xC0 = 0x40 then
                  { c with rawFrame1 := (b &&& 0x3F).setWidth 6, rxState := .awaitingByte3 }
                else { c with rxState := .awaitingByte1 }
              | .awaitingByte3 =>
                if b &&& 0xC0 = 0x80 then
                  { c with
                    rawFrame2 := (b &&& 0x0F).setWidth 4
                    raw18 :=
                      if s.params.rawLatch = .atCompletion then
                        BitVec.ofNat 16
                          (c.rawFrame0.toNat + c.rawFrame1.toNat * 64 + (b.toNat % 16) * 4096)
                      else c.raw18
                    newPacketReady := true
                    rxState := .awaitingByte1 }
                else { c with rxState := .awaitingByte1 }) }

/-- R120: FEED is exactly the row of the opcode table that (`rxState`, `b & 0xC0`) selects. -/
def Obligations.FeedRunsTheSelectedTransition : Prop :=
  ∀ (s : State) (ch : Nat) (c : ChannelState) (b : Byte),
    s.channels[ch]? = some c →
      ∃ t, exec (.feed ch b) s = .next t ∧ exec (wireRow c.rxState ch b) s = .next t

/-- A row whose key the machine's registers do not match is not selected and changes nothing. That a
directly issued row behaves so is the model's choice (assumption log 4). -/
def Obligations.UnselectedRowsChangeNothing : Prop :=
  ∀ (s : State) (ch : Nat) (c : ChannelState),
    s.channels[ch]? = some c →
      (c.rxState ≠ .awaitingByte1 → ∀ (x : BitVec 6),
        exec (.rx1Acc ch x) s = .next s ∧ exec (.rx1Rej01 ch x) s = .next s ∧
          exec (.rx1Rej10 ch x) s = .next s ∧ exec (.rx1Rej11 ch x) s = .next s) ∧
      (c.rxState ≠ .awaitingByte2 → ∀ (x : BitVec 6),
        exec (.rx2Acc ch x) s = .next s ∧ exec (.rx2Rej00 ch x) s = .next s ∧
          exec (.rx2Rej10 ch x) s = .next s ∧ exec (.rx2Rej11 ch x) s = .next s) ∧
      (c.rxState ≠ .awaitingByte3 → ∀ (x : BitVec 6) (rr : BitVec 2) (d : BitVec 4),
        exec (.rx3Acc ch rr d) s = .next s ∧ exec (.rx3Rej00 ch x) s = .next s ∧
          exec (.rx3Rej01 ch x) s = .next s ∧ exec (.rx3Rej11 ch x) s = .next s) ∧
      (∀ st, s.schedState ≠ st → exec (schedRow st) s = .next s) ∧
      (c.rawOperand s.params ≠ 65467 → exec (.convertErr ch) s = .next s) ∧
      (∀ raw, c.rawOperand s.params ≠ raw → exec (.convertOk ch raw) s = .next s) ∧
      (Num.geGate c.distanceMm = true → exec (.filterUpd ch) s = .next s) ∧
      (Num.geGate c.distanceMm = false → exec (.filterHold ch) s = .next s)

/-- R133(a), R94: from AwaitingByte1 the three bytes of `enc(r)`, the third with any reserved bits,
assemble `r`, set `newPacketReady` and return to AwaitingByte1. -/
def Obligations.EncodedSampleAssembles : Prop :=
  ∀ (s : State) (ch : Nat) (c : ChannelState) (r : BitVec 16) (rr : BitVec 2),
    s.channels[ch]? = some c → c.rxState = .awaitingByte1 → s.params.rawLatch = .atCompletion →
      ∃ t c', execAll
          [.feed ch (encSample r).1, .feed ch (encSample r).2.1,
            .feed ch ((encSample r).2.2 ||| (rr.setWidth 8 <<< 4))] s = .next t ∧
        t.channels[ch]? = some c' ∧ c'.raw18 = r ∧ c'.newPacketReady = true ∧
        c'.rxState = .awaitingByte1 ∧ c'.framingErrorCount = c.framingErrorCount

/-- R133(b): a rejected byte leaves the channel in AwaitingByte1, and of the three states after three
consecutive bytes at least one is AwaitingByte1. -/
def Obligations.ThreeBytesPassThroughAwaitingByte1 : Prop :=
  (∀ (s t : State) (ch : Nat) (c : ChannelState) (b : Byte),
    s.channels[ch]? = some c → ¬ Accepts c.rxState b → exec (.feed ch b) s = .next t →
      ∃ c', t.channels[ch]? = some c' ∧ c'.rxState = .awaitingByte1) ∧
  (∀ (s t₁ t₂ t₃ : State) (ch : Nat) (b₁ b₂ b₃ : Byte),
    ch < s.nCh → exec (.feed ch b₁) s = .next t₁ → exec (.feed ch b₂) t₁ = .next t₂ →
      exec (.feed ch b₃) t₂ = .next t₃ →
      ∃ c', (t₁.channels[ch]? = some c' ∨ t₂.channels[ch]? = some c' ∨
          t₃.channels[ch]? = some c') ∧ c'.rxState = .awaitingByte1)

/-- R133(c): any three consecutive FEEDs of one channel hold at most one completion. -/
def Obligations.ThreeBytesCompleteAtMostOnce : Prop :=
  ∀ (s t₁ t₂ : State) (ch : Nat) (b₁ b₂ b₃ : Byte),
    exec (.feed ch b₁) s = .next t₁ → exec (.feed ch b₂) t₁ = .next t₂ →
      ¬ (CompletesAt s ch b₁ ∧ CompletesAt t₁ ch b₂) ∧
      ¬ (CompletesAt s ch b₁ ∧ CompletesAt t₂ ch b₃) ∧
      ¬ (CompletesAt t₁ ch b₂ ∧ CompletesAt t₂ ch b₃)

/-- R290: what a lost byte costs an aligned channel whose count is not near saturation. Losing the
first or the third byte of a sample adds two framing errors, losing the second adds none; in no case
is a sample completed. -/
def Obligations.LostBytesCostWhatTheTableSays : Prop :=
  ∀ (s : State) (ch : Nat) (c : ChannelState) (b₁ b₂ b₁' b₂' b₃' : Byte),
    s.channels[ch]? = some c → c.rxState = .awaitingByte1 →
    c.framingErrorCount + 2 ≤ 2 ^ s.params.ctrW - 1 →
    b₁ &&& 0xC0 = 0x00 → b₂ &&& 0xC0 = 0x40 → b₁' &&& 0xC0 = 0x00 → b₂' &&& 0xC0 = 0x40 →
    b₃' &&& 0xC0 = 0x80 →
      (∃ t c', execAll [.feed ch b₂', .feed ch b₃'] s = .next t ∧ t.channels[ch]? = some c' ∧
        c'.rxState = .awaitingByte1 ∧ c'.framingErrorCount = c.framingErrorCount + 2 ∧
        c'.newPacketReady = c.newPacketReady ∧ c'.raw18 = c.raw18) ∧
      (∃ t c', execAll [.feed ch b₁, .feed ch b₃'] s = .next t ∧ t.channels[ch]? = some c' ∧
        c'.rxState = .awaitingByte1 ∧ c'.framingErrorCount = c.framingErrorCount ∧
        c'.newPacketReady = c.newPacketReady ∧ c'.raw18 = c.raw18) ∧
      (∃ t c', execAll
          [.feed ch b₁, .feed ch b₂, .feed ch b₁', .feed ch b₂', .feed ch b₃'] s = .next t ∧
        t.channels[ch]? = some c' ∧
        c'.rxState = .awaitingByte1 ∧ c'.framingErrorCount = c.framingErrorCount + 2 ∧
        c'.newPacketReady = c.newPacketReady ∧ c'.raw18 = c.raw18)

/-- R61: an index at or above N_CH changes nothing: every instruction that acts on one channel is a
no-op (for CONVERT, FILTER and their arms by the spec's own decision D15, assumption log 17), and a
getter leaves every register as it is and returns some value (free, R222, R223). -/
def Obligations.BadIndexChangesNothing : Prop :=
  ∀ (s : State) (ch : Nat), s.nCh ≤ ch →
    (∀ b, exec (.feed ch b) s = .next s) ∧ exec (.convert ch) s = .next s ∧
      exec (.filter ch) s = .next s ∧
      (∀ rx b, exec (wireRow rx ch b) s = .next s) ∧ (∀ r, exec (convertRow ch r) s = .next s) ∧
      (∀ g, exec (filterRow ch g) s = .next s) ∧
      (∃ v, exec (.getDist ch) s =
        .next { s with getResult := some (.real v), freeCount := s.freeCount + 1 }) ∧
      (∃ v, exec (.getErr ch) s =
        .next { s with getResult := some (.bool v), freeCount := s.freeCount + 1 })

/-! ### The conversion -/

/-- R151: the error arm sets `errorFlag`, counts the sentinel, saturating, and writes nothing else. -/
def Obligations.SentinelIsFlaggedAndCounted : Prop :=
  ∀ (s : State) (ch : Nat) (c : ChannelState),
    s.channels[ch]? = some c → c.rawOperand s.params = 65467 →
      exec (.convertErr ch) s =
        .next { s with
          channels := s.channels.set ch
            { c with
              errorFlag := true
              errorSentinelCount :=
                if c.errorSentinelCount < 2 ^ s.params.ctrW - 1 then c.errorSentinelCount + 1
                else c.errorSentinelCount } }

/-- R152: any other value is converted; the flag is cleared, the latch set, nothing else written. The
value stored is NUM_EXACT32's one rounding of the quotient (R12, R153), the spec's own decision D5
(assumption log 7); the operand is R155's under either RAW_LATCH. -/
def Obligations.OtherValuesAreConverted : Prop :=
  ∀ (s : State) (ch : Nat) (c : ChannelState) (r : BitVec 16),
    s.channels[ch]? = some c → c.rawOperand s.params = r → r ≠ 65467 →
      exec (.convertOk ch r) s =
        .next { s with
          channels := s.channels.set ch
            { c with
              errorFlag := false
              distanceMm := Num.rne32 (17 * (r.toNat : Int) - 10920) 21840
              newDistanceAvailable := true } }

/-- R150, R155: CONVERT reads the latch, or under `at_conversion` the assembly of `rawFrame` at that
time, and takes the error arm exactly on 65467. Where the value is latched is the spec's own decision
D4, and `conv` is NUM_EXACT32's, decision D5 (assumption log 7). -/
def Obligations.ConvertTakesTheArmOfItsValue : Prop :=
  ∀ (s : State) (ch : Nat) (c : ChannelState) (r : BitVec 16),
    s.channels[ch]? = some c →
    r = (if s.params.rawLatch = .atCompletion then c.raw18
      else c.rawFrame2 ++ c.rawFrame1 ++ c.rawFrame0) →
      exec (.convert ch) s =
        .next { s with
          channels := s.channels.set ch
            (if r = 65467 then
              { c with
                errorFlag := true
                errorSentinelCount := satInc s.params.ctrW c.errorSentinelCount }
            else
              { c with
                errorFlag := false, distanceMm := Num.conv r, newDistanceAvailable := true }) }

/-- R12: the first law every numeric model satisfies: `conv(r)` is within 2^-17 of the exact
quotient. -/
def Obligations.ConversionIsAccurate : Prop :=
  ∀ r : BitVec 16,
    |(Num.toRat (Num.conv r) : ℚ) - (17 * (r.toNat : ℚ) - 10920) / 21840| ≤ 1 / 2 ^ 17

/-- R12, R154(c): the second law: the gate holds a converted value exactly from `r = 64878` up. `conv` is
NUM_EXACT32's, the spec's own decision D5 (assumption log 7). -/
def Obligations.GateSplitsTheConvertedValues : Prop :=
  ∀ r : BitVec 16, Num.geGate (Num.conv r) = true ↔ 64878 ≤ r.toNat

/-- R154(a), R154(b): `conv` is strictly increasing, from -0.5 to 50.51167678833008. The two end patterns
are those of NUM_EXACT32, the spec's own decision D5 (assumption log 7). -/
def Obligations.ConversionIsStrictlyIncreasing : Prop :=
  (∀ r q : BitVec 16, r < q → Num.toRat (Num.conv r) < Num.toRat (Num.conv q)) ∧
    Num.conv 0 = 0xBF000000 ∧ Num.conv 65535 = 0x424A0BF5

/-- R12: `rne32(q)` is the binary32 number nearest to `q`, and on a tie the one with the even
significand; `q` within the finite range. `expo x ≠ 255` says that `x` is finite. The format and the
rounding are NUM_EXACT32's, the spec's own decision D5 (assumption log 7). -/
def Obligations.RoundingIsToNearestEven : Prop :=
  ∀ (num : Int) (den : Nat), 0 < den → num.natAbs < den * 2 ^ 127 →
    Num.expo (Num.rne32 num den) ≠ 255 ∧
    ∀ x : F32, Num.expo x ≠ 255 →
      |(Num.toRat (Num.rne32 num den) : ℚ) - (num : ℚ) / (den : ℚ)| ≤
        |(Num.toRat x : ℚ) - (num : ℚ) / (den : ℚ)| ∧
      (|(Num.toRat x : ℚ) - (num : ℚ) / (den : ℚ)| =
          |(Num.toRat (Num.rne32 num den) : ℚ) - (num : ℚ) / (den : ℚ)| →
        Num.toRat x ≠ Num.toRat (Num.rne32 num den) → Num.frac (Num.rne32 num den) % 2 = 0)

/-! ### The filter -/

/-- R171: at or above 50.0 FILTER.HOLD writes nothing. -/
def Obligations.OutOfRangeIsHeld : Prop :=
  ∀ (s : State) (ch : Nat) (c : ChannelState),
    s.channels[ch]? = some c → 50 ≤ Num.toRat c.distanceMm →
      exec (.filterHold ch) s = .next s ∧ exec (.filter ch) s = .next s

/-- R172, R173: below 50.0 the filter output is the recurrence over the old `previousValue`, which is
then loaded with the raw distance. The value stored is NUM_EXACT32's one rounding (R12, R173), the
spec's own decision D5 (assumption log 7). -/
def Obligations.InRangeIsFiltered : Prop :=
  ∀ (s : State) (ch : Nat) (c : ChannelState),
    s.channels[ch]? = some c → Num.toRat c.distanceMm < 50 →
      exec (.filterUpd ch) s =
        .next { s with
          channels := s.channels.set ch
            { c with
              filteredValue :=
                Num.rne32 (124 * Num.scaled c.previousValue + Num.scaled c.distanceMm)
                  (125 * 2 ^ 149)
              previousValue := c.distanceMm } }

/-- R170: FILTER takes the arm of the gate, `distanceMm >= 50.0`. `ema` is NUM_EXACT32's, the spec's own
decision D5 (assumption log 7). -/
def Obligations.FilterTakesTheArmOfItsGate : Prop :=
  ∀ (s : State) (ch : Nat) (c : ChannelState),
    s.channels[ch]? = some c →
      exec (.filter ch) s =
        .next { s with
          channels := s.channels.set ch
            (if Num.geGate c.distanceMm = true then c
            else
              { c with
                filteredValue := Num.ema c.previousValue c.distanceMm
                previousValue := c.distanceMm }) } ∧
      (Num.geGate c.distanceMm = true ↔ 50 ≤ Num.toRat c.distanceMm)

/-- R174(c): filtering the same value twice gives that value back exactly, for every finite value but
negative zero, which no rule produces. It holds of NUM_EXACT32, the spec's own decision D5 (assumption
log 7); R173 says that another admissible instance of NUM need not have it. -/
def Obligations.RecurrenceFixesAConstant : Prop :=
  ∀ d : F32, Num.expo d ≠ 255 → d ≠ 0x80000000 → Num.ema d d = d

/-! ### The scheduler -/

/-- R191. -/
def Obligations.ResetStepZeroesTheCounter : Prop :=
  ∀ s : State, s.schedState = .reset →
    exec .sReset s = .next { s with debounceCounter := 0, schedState := .waitLaserReset }

/-- R192: 50 stays, 51 goes; the counter is not changed. -/
def Obligations.WaitLaserResetNeedsMoreThanFifty : Prop :=
  ∀ s : State, s.schedState = .waitLaserReset →
    exec .sWaitLaserReset s =
      .next { s with
        schedState := if 51 ≤ s.debounceCounter then .initLaser else .waitLaserReset }

/-- R193: INIT_CMD once per channel, ascending, and nothing else. -/
def Obligations.InitLaserSendsTheCommand : Prop :=
  ∀ s : State, s.schedState = .initLaser →
    ∃ t, exec .sInitLaser s = .next t ∧
      t = { s with
        schedState := .waitInitDone
        calls := s.calls ++ (List.range s.nCh).map fun ch => .writeBytes ch s.params.initCmd } ∧
      t.txHistory = s.txHistory ++ (List.range s.nCh).map fun ch => (ch, s.params.initCmd)

/-- R194: the readiness check is asked once; past the answers listed it answers as the parameter says, by
default true. The extension point is the spec's own decision D13; its list of answers is the model's
form (assumption log 10). -/
def Obligations.WaitInitDoneAsksTheCheck : Prop :=
  ∀ s : State, s.schedState = .waitInitDone →
    exec .sWaitInitDone s =
      .next { s with
        schedState :=
          if s.initDoneAnswers.headD s.params.initDoneRest = true then .checkNewData
          else .waitInitDone
        initDoneAnswers := s.initDoneAnswers.tail
        calls := s.calls ++ [.initDone (s.initDoneAnswers.headD s.params.initDoneRest)] } ∧
    (s.initDoneAnswers = [] → s.params.initDoneRest = true →
      ∃ t, exec .sWaitInitDone s = .next t ∧ t.schedState = .checkNewData)

/-- R195, R74, R202: each channel is fed its next at most three answers, in order, whatever the other
channels do; the polls are made burst iteration outside, channels ascending inside; a byte is read
exactly after a true poll; the successor is CheckNewPacket. That a poll uses up one entry of a list per
channel, and that past its end there is no data, is the model's form of R80's free input (assumption
log 9), and the record of the calls is its form of the event history (assumption log 11). -/
def Obligations.CheckNewDataDrainsThreePerChannel : Prop :=
  ∀ s : State, s.schedState = .checkNewData →
    exec .sCheckNewData s =
      .next { s with
        schedState := .checkNewPacket
        channels := s.channels.mapIdx fun ch c =>
          ((s.rxLine ch).take 3).foldl
            (fun d a => match a with | none => d | some b => d.feed s.params b) c
        rx := s.rx.mapIdx fun ch l => if ch < s.nCh then l.drop 3 else l
        calls := s.calls ++ (List.range 3).flatMap fun k =>
          (List.range s.nCh).flatMap fun ch => pollCalls ch ((s.rxLine ch).getD k none) }

/-- R196, R202: exactly the channels with `newPacketReady` are converted, flagged for the filter and
cleared. -/
def Obligations.CheckNewPacketConvertsReadyChannels : Prop :=
  ∀ s : State, s.schedState = .checkNewPacket →
    exec .sCheckNewPacket s =
      .next { s with
        schedState := .filterPacket
        channels := s.channels.map fun c =>
          if c.newPacketReady = true then
            { c.convert s.params with pendingFilter := true, newPacketReady := false }
          else c }

/-- R197, R202: exactly the channels with `pendingFilter` are filtered and cleared, whether the filter
held or updated. -/
def Obligations.FilterPacketFiltersPendingChannels : Prop :=
  ∀ s : State, s.schedState = .filterPacket →
    exec .sFilterPacket s =
      .next { s with
        schedState := .checkNewData
        channels := s.channels.map fun c =>
          if c.pendingFilter = true then { c.filter with pendingFilter := false } else c }

/-- R190: under `one_state` one PROCESS is exactly the step `schedState` names on entry. One state per
invocation is the spec's own decision D3. -/
def Obligations.ProcessRunsTheSelectedStep : Prop :=
  ∀ s : State, s.params.passMode = .oneState →
    ∃ t, exec .process s = .next t ∧ exec (schedRow s.schedState) s = .next t

/-- R201: under `fused` a PROCESS in CheckNewData is the three data steps one after the other, and in
every other state the step of that state. That it is so in CheckNewPacket and FilterPacket, of which
R201 does not speak, is the model's reading (assumption log 23). -/
def Obligations.FusedPassRunsTheThreeDataSteps : Prop :=
  ∀ s : State, s.params.passMode = .fused →
    (s.schedState = .checkNewData →
      ∃ t, exec .process s = .next t ∧ t.schedState = .checkNewData ∧
        execAll [.sCheckNewData, .sCheckNewPacket, .sFilterPacket] s = .next t) ∧
    (s.schedState ≠ .checkNewData →
      ∃ t, exec .process s = .next t ∧ exec (schedRow s.schedState) s = .next t)

/-- R198: the successor of every scheduler state under PROCESS, and no operation but INIT leads back
to Reset. -/
def Obligations.SchedulerSuccessors : Prop :=
  (∀ s : State, s.params.passMode = .oneState →
    ∃ t, exec .process s = .next t ∧
      t.schedState =
        (match s.schedState with
          | .reset => .waitLaserReset
          | .waitLaserReset => if s.debounceCounter ≤ 50 then .waitLaserReset else .initLaser
          | .initLaser => .waitInitDone
          | .waitInitDone =>
            if s.initDoneAnswers.headD s.params.initDoneRest = true then .checkNewData
            else .waitInitDone
          | .checkNewData => .checkNewPacket
          | .checkNewPacket => .filterPacket
          | .filterPacket => .checkNewData)) ∧
  (∀ (i : Instr) (s t : State), i ≠ .init → exec i s = .next t → t.schedState = .reset →
    s.schedState = .reset)

/-- R199: after the S.RESET step, `t` TICKs and one PROCESS leave WaitLaserReset exactly when `t` is
at least 51; ticks before the S.RESET step do not count. The counter is wide enough to exceed 50. -/
def Obligations.DebounceTakesFiftyOneTicks : Prop :=
  ∀ (s : State) (n : Nat), s.schedState = .reset → 6 ≤ s.params.debW →
    ∃ t, execAll (.process :: (List.replicate n .tick ++ [.process])) s = .next t ∧
      t.schedState = if 51 ≤ n then .initLaser else .waitLaserReset

/-- R38(f), R291: under scheduler-only operation every step keeps the flags' place in the pipeline,
under either PASS_MODE. -/
def Obligations.StepKeepsThePipelineFlags : Prop :=
  ∀ s t : State, s.PipelineInv → (∀ c ∈ s.queue, schedulerOnly c = true) → step s = .next t →
    t.PipelineInv ∧ ∀ c ∈ t.queue, schedulerOnly c = true

/-- R200: a sample whose three bytes wait for an aligned channel in CheckNewData is converted in the
second PROCESS and filtered in the third; its distance shows and its flags are clear again, under
either RAW_LATCH. -/
def Obligations.SampleIsFilteredInThreePasses : Prop :=
  ∀ (s : State) (ch : Nat) (c : ChannelState) (r : BitVec 16) (rest : List (Option Byte)),
    s.params.passMode = .oneState → s.schedState = .checkNewData →
    s.channels[ch]? = some c → c.rxState = .awaitingByte1 → r ≠ 65467 →
    s.rxLine ch = some (encSample r).1 :: some (encSample r).2.1 :: some (encSample r).2.2 :: rest →
      ∃ t c', execAll [.process, .process, .process] s = .next t ∧
        t.channels[ch]? = some c' ∧ t.schedState = .checkNewData ∧ t.rxLine ch = rest ∧
        c'.distanceMm = Num.conv r ∧ c'.errorFlag = false ∧ c'.newDistanceAvailable = true ∧
        c'.newPacketReady = false ∧ c'.pendingFilter = false ∧
        (if r.toNat < 64878 then
          c'.filteredValue = Num.ema c.previousValue (Num.conv r) ∧
            c'.previousValue = Num.conv r
        else
          c'.filteredValue = c.filteredValue ∧ c'.previousValue = c.previousValue)

/-- R175: after an error sentinel the filter runs on the unchanged, stale distance. That it runs at all
there is the spec's own decision D28 (assumption log 24). -/
def Obligations.FilterRunsOnTheStaleDistance : Prop :=
  ∀ (s : State) (ch : Nat) (c : ChannelState),
    s.params.passMode = .oneState → s.schedState = .checkNewPacket →
    s.channels[ch]? = some c → c.newPacketReady = true → c.rawOperand s.params = 65467 →
    Num.geGate c.distanceMm = false →
      ∃ t c', execAll [.process, .process] s = .next t ∧ t.channels[ch]? = some c' ∧
        c'.errorFlag = true ∧ c'.distanceMm = c.distanceMm ∧
        c'.filteredValue = Num.ema c.previousValue c.distanceMm ∧
        c'.previousValue = c.distanceMm ∧ c'.newDistanceAvailable = c.newDistanceAvailable

/-! ### TICK, INIT and the getters -/

/-- R220: TICK increments the debounce counter in every scheduler state and touches nothing else; at
`2^DEB_W - 1` it stays, which is the spec's own decision D7. -/
def Obligations.TickIncrementsTheCounter : Prop :=
  ∀ s : State,
    exec .tick s =
      .next { s with
        debounceCounter :=
          if s.debounceCounter < 2 ^ s.params.debW - 1 then s.debounceCounter + 1
          else s.debounceCounter }

/-- R73, R247: a TICK just before or just after any other operation leaves the same state, unless the
operation is INIT or runs the step S.RESET or S.WAITLASERRESET, under PROCESS or as the row. (The rules
name the two steps; INIT writes the counter too.) -/
def Obligations.TickCommutesWithOtherOperations : Prop :=
  ∀ (i : Instr) (s : State), i ≠ .init →
    (s.schedState = .reset → i ≠ .process ∧ i ≠ .sReset) →
    (s.schedState = .waitLaserReset → i ≠ .process ∧ i ≠ .sWaitLaserReset) →
      execAll [.tick, i] s = execAll [i, .tick] s ∧ ∃ t, execAll [.tick, i] s = .next t

/-- R251: the tick context touches the debounce counter only, and among the main context's operations
only INIT and S.RESET (under PROCESS or as the row) write it. -/
def Obligations.CounterIsTheOnlySharedRegister : Prop :=
  (∀ (i : Instr) (s t : State), contextOf i = .tick → exec i s = .next t →
    t = { s with debounceCounter := t.debounceCounter }) ∧
  (∀ (i : Instr) (s t : State), contextOf i = .main → exec i s = .next t →
    t.debounceCounter = s.debounceCounter ∨
      (t.debounceCounter = 0 ∧
        (i = .init ∨ (s.schedState = .reset ∧ (i = .process ∨ i = .sReset)))))

/-- R221, R64: INIT writes every register of the block, calls the fault-tree module once per channel,
ascending, and leaves the byte source and the rest of the environment as they are. The values the
source does not state are the spec's own decision D10 (assumption log 14), and one FAULT_INIT for every
channel is the model's reading of D18 (assumption log 20). -/
def Obligations.InitRecreatesTheState : Prop :=
  ∀ s : State,
    exec .init s =
      .next { s with
        schedState := .reset
        debounceCounter := 0
        channels := List.replicate s.nCh
          { rxState := .awaitingByte1, rawFrame0 := 0, rawFrame1 := 0, rawFrame2 := 0, raw18 := 0
            distanceMm := Num.rne32 999999 10, filteredValue := 0, previousValue := 0
            errorFlag := false, newPacketReady := false, pendingFilter := false
            newDistanceAvailable := false, errorSentinelCount := 0, framingErrorCount := 0
            faultFlags := s.params.faultInit }
        calls := s.calls ++ (List.range s.nCh).map .faultInit }

/-- R41: the registers right after reset, for any number of channels and any parameters. The values
the source does not state are the spec's own decision D10; that `State.reset` has two channels is the
model's choice (assumption log 2) and no part of this. -/
def Obligations.RegistersAtReset : Prop :=
  ∀ (n : Nat) (p : Params),
    (State.resetWith n p).schedState = .reset ∧ (State.resetWith n p).debounceCounter = 0 ∧
      (State.resetWith n p).nCh = n ∧
      ∀ c ∈ (State.resetWith n p).channels,
        c.rxState = .awaitingByte1 ∧ c.rawFrame0 = 0 ∧ c.rawFrame1 = 0 ∧ c.rawFrame2 = 0 ∧
          c.raw18 = 0 ∧ c.distanceMm = Num.rne32 999999 10 ∧ Num.toRat c.filteredValue = 0 ∧
          Num.toRat c.previousValue = 0 ∧ c.errorFlag = false ∧ c.newPacketReady = false ∧
          c.pendingFilter = false ∧ c.newDistanceAvailable = false ∧ c.errorSentinelCount = 0 ∧
          c.framingErrorCount = 0 ∧ c.faultFlags = p.faultInit

/-- R222, R223: the getters return `distanceMm` and `errorFlag` and change no register. Where the model
keeps what a getter returns is its own choice (assumption log 12). -/
def Obligations.GettersReturnTheRegisters : Prop :=
  ∀ (s : State) (ch : Nat) (c : ChannelState), s.channels[ch]? = some c →
    exec (.getDist ch) s = .next { s with getResult := some (.real c.distanceMm) } ∧
      exec (.getErr ch) s = .next { s with getResult := some (.bool c.errorFlag) }

/-! ### Whole-machine rules -/

/-- A step runs the decoded instruction: when the next command of the trace decodes to `i`, the step
is `exec i` with that command removed from the trace and nothing else around it. -/
def Obligations.StepRunsTheDecodedInstruction : Prop :=
  ∀ (s : State) (c : Cmd) (rest : List Cmd) (i : Instr),
    s.queue = c :: rest → decode c = .ok i → step s = exec i { s with queue := rest }

/-- R225, R256: a reserved operation code has no effect but to be used up (the spec's own decision D23);
with nothing issued the block does nothing (assumption log 1); a key no row has, and a key with a bit
above its format's width, is refused by name (the model's choice, assumption log 18). -/
def Obligations.StepWithoutAnInstruction : Prop :=
  (∀ (s : State) (c : Cmd) (rest : List Cmd) (code : BitVec 4), s.queue = c :: rest →
    decode c = .error (.reservedOp code) → step s = .next { s with queue := rest }) ∧
  (∀ s : State, s.queue = [] → step s = .next s) ∧
  (∀ (s : State) (c : Cmd) (rest : List Cmd), s.queue = c :: rest →
    firstRow c.format c.key = none → c.format ≠ .OP → step s = .refused (.noSuchKey c.format c.key)) ∧
  (∀ (s : State) (c : Cmd) (rest : List Cmd), s.queue = c :: rest →
    2 ^ c.format.width ≤ c.key.toNat → step s = .refused (.noSuchKey c.format c.key))

/-- R240: no instruction traps, aborts or stops: each returns a next state in every state, whatever
its operands; the parameters, the number of channels and the rest of the trace are as they were. -/
def Obligations.EveryOperationReturnsANextState : Prop :=
  ∀ (i : Instr) (s : State), ∃ t, exec i s = .next t ∧ t.params = s.params ∧ t.nCh = s.nCh ∧
    t.queue = s.queue

/-- R37, R38, R24, R26: every step keeps the machine's invariant, whatever operation it runs. -/
def Obligations.StepKeepsTheInvariant : Prop :=
  ∀ s t : State, s.Inv → step s = .next t → t.Inv

/-- Both invariants hold right after reset, and so they do for every other number of channels and
every parameters whose counters are at least one bit wide (R38, R41). -/
def Obligations.InvariantsAtReset : Prop :=
  State.reset.Inv ∧ State.reset.PipelineInv ∧
    ∀ (n : Nat) (p : Params),
      (State.resetWith n p).PipelineInv ∧
        (1 ≤ n → 1 ≤ p.ctrW → (State.resetWith n p).Inv)

/-- R37(d), R33: between two INITs no event counter decreases, and the fault flags stay as INIT left
them, whatever the operation. -/
def Obligations.CountersNeverDecreaseAndFaultFlagsStay : Prop :=
  ∀ (i : Instr) (s t : State) (k : Nat) (c : ChannelState), i ≠ .init → exec i s = .next t →
    s.channels[k]? = some c →
      ∃ c', t.channels[k]? = some c' ∧ c.errorSentinelCount ≤ c'.errorSentinelCount ∧
        c'.errorSentinelCount ≤ c.errorSentinelCount + 1 ∧
        c.framingErrorCount ≤ c'.framingErrorCount ∧
        c'.framingErrorCount ≤ c.framingErrorCount + 3 ∧ c'.faultFlags = c.faultFlags

/-- R37(c), R24, R30: `distanceMm` changes only in a successful conversion, which then shows in the
flag and the latch; the latch is never cleared but by INIT; and only CONVERT, the OK row, and the
scheduler's conversion step can write it. -/
def Obligations.OnlyConversionWritesTheDistance : Prop :=
  ∀ (i : Instr) (s t : State) (k : Nat) (c : ChannelState), i ≠ .init → exec i s = .next t →
    s.channels[k]? = some c →
      ∃ c', t.channels[k]? = some c' ∧
        (c.newDistanceAvailable = true → c'.newDistanceAvailable = true) ∧
        ((c'.distanceMm = c.distanceMm ∧ c'.newDistanceAvailable = c.newDistanceAvailable) ∨
          ((∃ r : BitVec 16, r ≠ 65467 ∧ c'.distanceMm = Num.conv r) ∧ c'.errorFlag = false ∧
            c'.newDistanceAvailable = true ∧
            (i = .convert k ∨ (∃ r, i = .convertOk k r) ∨ i = .process ∨ i = .sCheckNewPacket)))

/-- R37(c), R25, R26: the filter registers change only together, by the recurrence, on an in-range
distance. -/
def Obligations.OnlyTheFilterWritesItsRegisters : Prop :=
  ∀ (i : Instr) (s t : State) (k : Nat) (c : ChannelState), i ≠ .init → exec i s = .next t →
    s.channels[k]? = some c →
      ∃ c', t.channels[k]? = some c' ∧
        ((c'.filteredValue = c.filteredValue ∧ c'.previousValue = c.previousValue) ∨
          (Num.geGate c'.distanceMm = false ∧ c'.previousValue = c'.distanceMm ∧
            c'.filteredValue = Num.ema c.previousValue c'.distanceMm ∧
            (i = .filter k ∨ i = .filterUpd k ∨ i = .process ∨ i = .sFilterPacket)))

/-- R202, R242, R74: lanes do not interact: what an operation leaves on one channel depends on nothing
of any other channel. -/
def Obligations.ChannelsDoNotInteract : Prop :=
  ∀ (i : Instr) (k : Nat) (s s' t t' : State), SameLane k s s' → exec i s = .next t →
    exec i s' = .next t' → SameLane k t t'

/-- R288: starvation is not detected and not timed out. Without TICK (and INIT) nothing leads out of
WaitLaserReset while the count is at most 50; with a check that is never true nothing but INIT leads out
of WaitInitDone, whatever is issued and however often; without PROCESS, INIT and the scheduler rows the
scheduler does not move; and a getter after a PROCESS in either wait returns the distance from before.
The answers of the check are the model's form of D13 (assumption log 10). -/
def Obligations.StarvationIsNotTimedOut : Prop :=
  (∀ (i : Instr) (s t : State), i ≠ .init → i ≠ .tick → exec i s = .next t →
    s.schedState = .waitLaserReset → s.debounceCounter ≤ 50 →
      t.schedState = .waitLaserReset ∧ t.debounceCounter = s.debounceCounter) ∧
  (∀ (i : Instr) (s t : State), i ≠ .init → exec i s = .next t →
    s.schedState = .waitInitDone → s.params.initDoneRest = false →
    (∀ a ∈ s.initDoneAnswers, a = false) →
      t.schedState = .waitInitDone ∧ t.params.initDoneRest = false ∧
        ∀ a ∈ t.initDoneAnswers, a = false) ∧
  (∀ (i : Instr) (s t : State), i ≠ .init → i ≠ .process → (∀ st, i ≠ schedRow st) →
    exec i s = .next t → t.schedState = s.schedState) ∧
  (∀ (s : State) (ch : Nat) (c : ChannelState),
    s.schedState = .waitLaserReset ∨ s.schedState = .waitInitDone → s.channels[ch]? = some c →
      ∃ t, execAll [.process, .getDist ch] s = .next t ∧ t.channels = s.channels ∧
        t.getResult = some (.real c.distanceMm))
end

