-- ==== Sys2Proof/Laws/State.lean ====
section
/-! SUPPORT. The field lemmas of State: for each setter of Machine/Ops.lean, what every field reads
after it. All hold by rfl, so that no later proof unfolds a record update. -/

namespace Sys2Proof.Machine

variable (s : State)

@[simp] theorem State.setSched_schedState (st : SchedState) : (s.setSched st).schedState = st := rfl
@[simp] theorem State.setSched_debounceCounter (st : SchedState) : (s.setSched st).debounceCounter = s.debounceCounter := rfl
@[simp] theorem State.setSched_channels (st : SchedState) : (s.setSched st).channels = s.channels := rfl
@[simp] theorem State.setSched_params (st : SchedState) : (s.setSched st).params = s.params := rfl
@[simp] theorem State.setSched_rx (st : SchedState) : (s.setSched st).rx = s.rx := rfl
@[simp] theorem State.setSched_initDoneAnswers (st : SchedState) : (s.setSched st).initDoneAnswers = s.initDoneAnswers := rfl
@[simp] theorem State.setSched_calls (st : SchedState) : (s.setSched st).calls = s.calls := rfl
@[simp] theorem State.setSched_queue (st : SchedState) : (s.setSched st).queue = s.queue := rfl
@[simp] theorem State.setSched_getResult (st : SchedState) : (s.setSched st).getResult = s.getResult := rfl
@[simp] theorem State.setSched_freeCount (st : SchedState) : (s.setSched st).freeCount = s.freeCount := rfl
@[simp] theorem State.setSched_nCh (st : SchedState) : (s.setSched st).nCh = s.nCh := rfl

@[simp] theorem State.setDebounce_schedState (n : Nat) : (s.setDebounce n).schedState = s.schedState := rfl
@[simp] theorem State.setDebounce_debounceCounter (n : Nat) : (s.setDebounce n).debounceCounter = n := rfl
@[simp] theorem State.setDebounce_channels (n : Nat) : (s.setDebounce n).channels = s.channels := rfl
@[simp] theorem State.setDebounce_params (n : Nat) : (s.setDebounce n).params = s.params := rfl
@[simp] theorem State.setDebounce_rx (n : Nat) : (s.setDebounce n).rx = s.rx := rfl
@[simp] theorem State.setDebounce_initDoneAnswers (n : Nat) : (s.setDebounce n).initDoneAnswers = s.initDoneAnswers := rfl
@[simp] theorem State.setDebounce_calls (n : Nat) : (s.setDebounce n).calls = s.calls := rfl
@[simp] theorem State.setDebounce_queue (n : Nat) : (s.setDebounce n).queue = s.queue := rfl
@[simp] theorem State.setDebounce_getResult (n : Nat) : (s.setDebounce n).getResult = s.getResult := rfl
@[simp] theorem State.setDebounce_freeCount (n : Nat) : (s.setDebounce n).freeCount = s.freeCount := rfl
@[simp] theorem State.setDebounce_nCh (n : Nat) : (s.setDebounce n).nCh = s.nCh := rfl

@[simp] theorem State.setChannels_schedState (cs : List ChannelState) : (s.setChannels cs).schedState = s.schedState := rfl
@[simp] theorem State.setChannels_debounceCounter (cs : List ChannelState) : (s.setChannels cs).debounceCounter = s.debounceCounter := rfl
@[simp] theorem State.setChannels_channels (cs : List ChannelState) : (s.setChannels cs).channels = cs := rfl
@[simp] theorem State.setChannels_params (cs : List ChannelState) : (s.setChannels cs).params = s.params := rfl
@[simp] theorem State.setChannels_rx (cs : List ChannelState) : (s.setChannels cs).rx = s.rx := rfl
@[simp] theorem State.setChannels_initDoneAnswers (cs : List ChannelState) : (s.setChannels cs).initDoneAnswers = s.initDoneAnswers := rfl
@[simp] theorem State.setChannels_calls (cs : List ChannelState) : (s.setChannels cs).calls = s.calls := rfl
@[simp] theorem State.setChannels_queue (cs : List ChannelState) : (s.setChannels cs).queue = s.queue := rfl
@[simp] theorem State.setChannels_getResult (cs : List ChannelState) : (s.setChannels cs).getResult = s.getResult := rfl
@[simp] theorem State.setChannels_freeCount (cs : List ChannelState) : (s.setChannels cs).freeCount = s.freeCount := rfl
@[simp] theorem State.setChannels_nCh (cs : List ChannelState) : (s.setChannels cs).nCh = cs.length := rfl

@[simp] theorem State.setRx_schedState (l : List (List (Option Byte))) : (s.setRx l).schedState = s.schedState := rfl
@[simp] theorem State.setRx_debounceCounter (l : List (List (Option Byte))) : (s.setRx l).debounceCounter = s.debounceCounter := rfl
@[simp] theorem State.setRx_channels (l : List (List (Option Byte))) : (s.setRx l).channels = s.channels := rfl
@[simp] theorem State.setRx_params (l : List (List (Option Byte))) : (s.setRx l).params = s.params := rfl
@[simp] theorem State.setRx_rx (l : List (List (Option Byte))) : (s.setRx l).rx = l := rfl
@[simp] theorem State.setRx_initDoneAnswers (l : List (List (Option Byte))) : (s.setRx l).initDoneAnswers = s.initDoneAnswers := rfl
@[simp] theorem State.setRx_calls (l : List (List (Option Byte))) : (s.setRx l).calls = s.calls := rfl
@[simp] theorem State.setRx_queue (l : List (List (Option Byte))) : (s.setRx l).queue = s.queue := rfl
@[simp] theorem State.setRx_getResult (l : List (List (Option Byte))) : (s.setRx l).getResult = s.getResult := rfl
@[simp] theorem State.setRx_freeCount (l : List (List (Option Byte))) : (s.setRx l).freeCount = s.freeCount := rfl
@[simp] theorem State.setRx_nCh (l : List (List (Option Byte))) : (s.setRx l).nCh = s.nCh := rfl

@[simp] theorem State.setInitDoneAnswers_schedState (l : List Bool) : (s.setInitDoneAnswers l).schedState = s.schedState := rfl
@[simp] theorem State.setInitDoneAnswers_debounceCounter (l : List Bool) : (s.setInitDoneAnswers l).debounceCounter = s.debounceCounter := rfl
@[simp] theorem State.setInitDoneAnswers_channels (l : List Bool) : (s.setInitDoneAnswers l).channels = s.channels := rfl
@[simp] theorem State.setInitDoneAnswers_params (l : List Bool) : (s.setInitDoneAnswers l).params = s.params := rfl
@[simp] theorem State.setInitDoneAnswers_rx (l : List Bool) : (s.setInitDoneAnswers l).rx = s.rx := rfl
@[simp] theorem State.setInitDoneAnswers_initDoneAnswers (l : List Bool) : (s.setInitDoneAnswers l).initDoneAnswers = l := rfl
@[simp] theorem State.setInitDoneAnswers_calls (l : List Bool) : (s.setInitDoneAnswers l).calls = s.calls := rfl
@[simp] theorem State.setInitDoneAnswers_queue (l : List Bool) : (s.setInitDoneAnswers l).queue = s.queue := rfl
@[simp] theorem State.setInitDoneAnswers_getResult (l : List Bool) : (s.setInitDoneAnswers l).getResult = s.getResult := rfl
@[simp] theorem State.setInitDoneAnswers_freeCount (l : List Bool) : (s.setInitDoneAnswers l).freeCount = s.freeCount := rfl
@[simp] theorem State.setInitDoneAnswers_nCh (l : List Bool) : (s.setInitDoneAnswers l).nCh = s.nCh := rfl

@[simp] theorem State.log_schedState (e : ExtCall) : (s.log e).schedState = s.schedState := rfl
@[simp] theorem State.log_debounceCounter (e : ExtCall) : (s.log e).debounceCounter = s.debounceCounter := rfl
@[simp] theorem State.log_channels (e : ExtCall) : (s.log e).channels = s.channels := rfl
@[simp] theorem State.log_params (e : ExtCall) : (s.log e).params = s.params := rfl
@[simp] theorem State.log_rx (e : ExtCall) : (s.log e).rx = s.rx := rfl
@[simp] theorem State.log_initDoneAnswers (e : ExtCall) : (s.log e).initDoneAnswers = s.initDoneAnswers := rfl
@[simp] theorem State.log_calls (e : ExtCall) : (s.log e).calls = s.calls ++ [e] := rfl
@[simp] theorem State.log_queue (e : ExtCall) : (s.log e).queue = s.queue := rfl
@[simp] theorem State.log_getResult (e : ExtCall) : (s.log e).getResult = s.getResult := rfl
@[simp] theorem State.log_freeCount (e : ExtCall) : (s.log e).freeCount = s.freeCount := rfl
@[simp] theorem State.log_nCh (e : ExtCall) : (s.log e).nCh = s.nCh := rfl

@[simp] theorem State.setQueue_schedState (q : List Cmd) : (s.setQueue q).schedState = s.schedState := rfl
@[simp] theorem State.setQueue_debounceCounter (q : List Cmd) : (s.setQueue q).debounceCounter = s.debounceCounter := rfl
@[simp] theorem State.setQueue_channels (q : List Cmd) : (s.setQueue q).channels = s.channels := rfl
@[simp] theorem State.setQueue_params (q : List Cmd) : (s.setQueue q).params = s.params := rfl
@[simp] theorem State.setQueue_rx (q : List Cmd) : (s.setQueue q).rx = s.rx := rfl
@[simp] theorem State.setQueue_initDoneAnswers (q : List Cmd) : (s.setQueue q).initDoneAnswers = s.initDoneAnswers := rfl
@[simp] theorem State.setQueue_calls (q : List Cmd) : (s.setQueue q).calls = s.calls := rfl
@[simp] theorem State.setQueue_queue (q : List Cmd) : (s.setQueue q).queue = q := rfl
@[simp] theorem State.setQueue_getResult (q : List Cmd) : (s.setQueue q).getResult = s.getResult := rfl
@[simp] theorem State.setQueue_freeCount (q : List Cmd) : (s.setQueue q).freeCount = s.freeCount := rfl
@[simp] theorem State.setQueue_nCh (q : List Cmd) : (s.setQueue q).nCh = s.nCh := rfl

@[simp] theorem State.setGetResult_schedState (r : GetResult) : (s.setGetResult r).schedState = s.schedState := rfl
@[simp] theorem State.setGetResult_debounceCounter (r : GetResult) : (s.setGetResult r).debounceCounter = s.debounceCounter := rfl
@[simp] theorem State.setGetResult_channels (r : GetResult) : (s.setGetResult r).channels = s.channels := rfl
@[simp] theorem State.setGetResult_params (r : GetResult) : (s.setGetResult r).params = s.params := rfl
@[simp] theorem State.setGetResult_rx (r : GetResult) : (s.setGetResult r).rx = s.rx := rfl
@[simp] theorem State.setGetResult_initDoneAnswers (r : GetResult) : (s.setGetResult r).initDoneAnswers = s.initDoneAnswers := rfl
@[simp] theorem State.setGetResult_calls (r : GetResult) : (s.setGetResult r).calls = s.calls := rfl
@[simp] theorem State.setGetResult_queue (r : GetResult) : (s.setGetResult r).queue = s.queue := rfl
@[simp] theorem State.setGetResult_getResult (r : GetResult) : (s.setGetResult r).getResult = some r := rfl
@[simp] theorem State.setGetResult_freeCount (r : GetResult) : (s.setGetResult r).freeCount = s.freeCount := rfl
@[simp] theorem State.setGetResult_nCh (r : GetResult) : (s.setGetResult r).nCh = s.nCh := rfl

@[simp] theorem State.countDraw_schedState : s.countDraw.schedState = s.schedState := rfl
@[simp] theorem State.countDraw_debounceCounter : s.countDraw.debounceCounter = s.debounceCounter := rfl
@[simp] theorem State.countDraw_channels : s.countDraw.channels = s.channels := rfl
@[simp] theorem State.countDraw_params : s.countDraw.params = s.params := rfl
@[simp] theorem State.countDraw_rx : s.countDraw.rx = s.rx := rfl
@[simp] theorem State.countDraw_initDoneAnswers : s.countDraw.initDoneAnswers = s.initDoneAnswers := rfl
@[simp] theorem State.countDraw_calls : s.countDraw.calls = s.calls := rfl
@[simp] theorem State.countDraw_queue : s.countDraw.queue = s.queue := rfl
@[simp] theorem State.countDraw_getResult : s.countDraw.getResult = s.getResult := rfl
@[simp] theorem State.countDraw_freeCount : s.countDraw.freeCount = s.freeCount + 1 := rfl
@[simp] theorem State.countDraw_nCh : s.countDraw.nCh = s.nCh := rfl

end Sys2Proof.Machine
end

