-- ==== Sys2Proof/Laws/Ops.lean ====
section
/-! SUPPORT. What each shared operation can do, once: the bound-checked access to one channel, the loop
over channels, the saturating increment, the fetch. Later proofs cite these and do not unfold the
operations. -/

namespace Sys2Proof.Machine

/-! ### The saturating increment (R11) -/

theorem le_satInc (w v : Nat) : v ≤ satInc w v := by
  unfold satInc; split <;> omega

theorem satInc_le_succ (w v : Nat) : satInc w v ≤ v + 1 := by
  unfold satInc; split <;> omega

theorem satInc_le_max {w v : Nat} (h : v ≤ 2 ^ w - 1) : satInc w v ≤ 2 ^ w - 1 := by
  unfold satInc; split <;> omega

theorem satInc_of_lt {w v : Nat} (h : v < 2 ^ w - 1) : satInc w v = v + 1 := if_pos h

theorem satInc_at_max (w : Nat) : satInc w (2 ^ w - 1) = 2 ^ w - 1 := by simp [satInc]

theorem satInc_pos {w v : Nat} (hw : 1 ≤ w) : 1 ≤ satInc w v := by
  have h2 : 2 ≤ 2 ^ w := by
    calc 2 = 2 ^ 1 := rfl
      _ ≤ 2 ^ w := Nat.pow_le_pow_right (by omega) hw
  unfold satInc; split <;> omega

/-! ### One channel (R61) -/

theorem State.onChannel_of_le {s : State} {ch : Nat} (f : ChannelState → ChannelState)
    (h : s.nCh ≤ ch) : s.onChannel ch f = s := if_neg (by omega)

theorem State.onChannel_of_lt {s : State} {ch : Nat} (f : ChannelState → ChannelState)
    (h : ch < s.nCh) : s.onChannel ch f = s.setChannels (s.channels.modify ch f) := if_pos h

/-- The one fact about `onChannel`: whatever the index, the channels are those of `modify`, and
nothing else changes. -/
theorem State.onChannel_eq (s : State) (ch : Nat) (f : ChannelState → ChannelState) :
    s.onChannel ch f = s.setChannels (s.channels.modify ch f) := by
  unfold State.onChannel
  split
  · rfl
  · rename_i h
    have : s.channels.modify ch f = s.channels := by
      apply List.ext_getElem?
      intro j
      rw [List.getElem?_modify]
      have hlen : s.channels.length ≤ ch := by simpa [State.nCh] using h
      by_cases hj : ch = j
      · subst hj
        simp [List.getElem?_eq_none hlen]
      · simp [hj]
    rw [this]
    rfl

theorem State.onChannel_of_some {s : State} {ch : Nat} {c : ChannelState}
    (f : ChannelState → ChannelState) (h : s.channels[ch]? = some c) :
    s.onChannel ch f = s.setChannels (s.channels.set ch (f c)) := by
  rw [State.onChannel_eq]
  congr 1
  apply List.ext_getElem?
  intro j
  obtain ⟨hlt, hc⟩ := List.getElem?_eq_some_iff.mp h
  rw [List.getElem?_modify, List.getElem?_set]
  by_cases hj : ch = j
  · subst hj; simp [hlt, hc]
  · simp [hj]

@[simp] theorem State.onChannel_nCh (s : State) (ch : Nat) (f : ChannelState → ChannelState) :
    (s.onChannel ch f).nCh = s.nCh := by
  rw [State.onChannel_eq]; simp [State.nCh]

@[simp] theorem State.onChannel_schedState (s : State) (ch : Nat)
    (f : ChannelState → ChannelState) : (s.onChannel ch f).schedState = s.schedState := by
  rw [State.onChannel_eq]; rfl

@[simp] theorem State.onChannel_debounceCounter (s : State) (ch : Nat)
    (f : ChannelState → ChannelState) :
    (s.onChannel ch f).debounceCounter = s.debounceCounter := by
  rw [State.onChannel_eq]; rfl

@[simp] theorem State.onChannel_params (s : State) (ch : Nat)
    (f : ChannelState → ChannelState) : (s.onChannel ch f).params = s.params := by
  rw [State.onChannel_eq]; rfl

@[simp] theorem State.onChannel_rx (s : State) (ch : Nat)
    (f : ChannelState → ChannelState) : (s.onChannel ch f).rx = s.rx := by
  rw [State.onChannel_eq]; rfl

@[simp] theorem State.onChannel_initDoneAnswers (s : State) (ch : Nat)
    (f : ChannelState → ChannelState) :
    (s.onChannel ch f).initDoneAnswers = s.initDoneAnswers := by
  rw [State.onChannel_eq]; rfl

@[simp] theorem State.onChannel_calls (s : State) (ch : Nat)
    (f : ChannelState → ChannelState) : (s.onChannel ch f).calls = s.calls := by
  rw [State.onChannel_eq]; rfl

@[simp] theorem State.onChannel_queue (s : State) (ch : Nat)
    (f : ChannelState → ChannelState) : (s.onChannel ch f).queue = s.queue := by
  rw [State.onChannel_eq]; rfl

@[simp] theorem State.onChannel_getResult (s : State) (ch : Nat)
    (f : ChannelState → ChannelState) : (s.onChannel ch f).getResult = s.getResult := by
  rw [State.onChannel_eq]; rfl

@[simp] theorem State.onChannel_freeCount (s : State) (ch : Nat)
    (f : ChannelState → ChannelState) : (s.onChannel ch f).freeCount = s.freeCount := by
  rw [State.onChannel_eq]; rfl

@[simp] theorem State.onChannel_channels (s : State) (ch : Nat)
    (f : ChannelState → ChannelState) :
    (s.onChannel ch f).channels = s.channels.modify ch f := by
  rw [State.onChannel_eq]; rfl

/-! ### The loop over channels (R74, R202) -/

/-- A property every iteration keeps is kept by the loop. -/
theorem State.forChannels_induct {P : State → Prop} {f : Nat → State → State} {s : State}
    (h0 : P s) (hstep : ∀ ch t, P t → P (f ch t)) : P (s.forChannels f) := by
  unfold State.forChannels
  generalize List.range s.nCh = l
  induction l generalizing s with
  | nil => exact h0
  | cons a l ih => exact ih (hstep a s h0)

theorem foldl_modify_range {α : Type} (f : α → α) (xs : List α) (n : Nat) :
    (List.range n).foldl (fun l i => l.modify i f) xs = xs.mapIdx fun i x => if i < n then f x else x := by
  induction n with
  | zero => exact (List.ext_getElem? fun j => by simp)
  | succ n ih =>
    rw [List.range_succ, List.foldl_append, ih]
    apply List.ext_getElem?
    intro j
    simp only [List.foldl_cons, List.foldl_nil, List.getElem?_modify, List.getElem?_mapIdx,
      Option.map_eq_map, Option.map_map]
    cases xs[j]? with
    | none => rfl
    | some x =>
      simp only [Option.map_some, Function.comp]
      by_cases h : n = j
      · subst h; simp
      · have h' : j < n + 1 ↔ j < n := by omega
        simp [h, h']

/-- A loop whose body acts on its own channel only is a map over the channels: lanes do not interact
(R202). -/
theorem State.forChannels_onChannel (s : State) (f : ChannelState → ChannelState) :
    (s.forChannels fun ch t => t.onChannel ch f) = s.setChannels (s.channels.map f) := by
  have key : ∀ (l : List Nat) (t : State),
      l.foldl (fun t ch => t.onChannel ch f) t
        = t.setChannels (l.foldl (fun cs i => cs.modify i f) t.channels) := by
    intro l
    induction l with
    | nil => intro t; rfl
    | cons a l ih => intro t; rw [List.foldl_cons, ih, State.onChannel_eq]; rfl
  unfold State.forChannels
  rw [key, foldl_modify_range]
  congr 1
  apply List.ext_getElem?
  intro j
  rw [List.getElem?_mapIdx, List.getElem?_map]
  by_cases h : j < s.channels.length
  · simp [State.nCh, h]
  · simp [List.getElem?_eq_none (Nat.le_of_not_lt h)]

/-- A loop that only calls the environment appends one call per channel, ascending (R74). -/
theorem State.forChannels_log (s : State) (e : Nat → ExtCall) :
    (s.forChannels fun ch t => t.log (e ch))
      = { s with calls := s.calls ++ (List.range s.nCh).map e } := by
  have key : ∀ (l : List Nat) (t : State),
      l.foldl (fun t ch => t.log (e ch)) t = { t with calls := t.calls ++ l.map e } := by
    intro l
    induction l with
    | nil => intro t; simp
    | cons a l ih => intro t; rw [List.foldl_cons, ih]; simp [State.log]
  unfold State.forChannels
  exact key _ s

/-! ### The readiness check (R194) -/

/-- Past the listed answers the check answers as its parameter says. -/
theorem State.initDoneAnswer_of_nil {s : State} (h : s.initDoneAnswers = []) :
    s.initDoneAnswer = s.params.initDoneRest := by
  unfold State.initDoneAnswer; rw [h]; rfl

theorem State.initDoneAnswer_of_cons {s : State} {a : Bool} {l : List Bool}
    (h : s.initDoneAnswers = a :: l) : s.initDoneAnswer = a := by
  unfold State.initDoneAnswer; rw [h]; rfl

@[simp] theorem State.askInitDone_schedState (s : State) :
    s.askInitDone.schedState = s.schedState := rfl
@[simp] theorem State.askInitDone_debounceCounter (s : State) :
    s.askInitDone.debounceCounter = s.debounceCounter := rfl
@[simp] theorem State.askInitDone_channels (s : State) :
    s.askInitDone.channels = s.channels := rfl
@[simp] theorem State.askInitDone_params (s : State) : s.askInitDone.params = s.params := rfl
@[simp] theorem State.askInitDone_initDoneAnswers (s : State) :
    s.askInitDone.initDoneAnswers = s.initDoneAnswers.tail := rfl

/-! ### The fetch -/

theorem State.fetch_nil {s : State} (h : s.queue = []) : s.fetch = none := by
  unfold State.fetch; rw [h]

theorem State.fetch_cons {s : State} {c : Cmd} {rest : List Cmd} (h : s.queue = c :: rest) :
    s.fetch = some (c, s.setQueue rest) := by
  unfold State.fetch; rw [h]

theorem step_idle {s : State} (h : s.queue = []) : step s = .next s := by
  unfold step; rw [State.fetch_nil h]

end Sys2Proof.Machine
end

