-- ==== Sys2Proof/Laws/Scheduler.lean ====
section
/-! SUPPORT. What the polls of the CheckNewData step do, once: one poll, one sweep over the channels, and
the loops of the other steps as maps over the channels. -/

namespace Sys2Proof.Machine

/-- What one answer does to a channel. -/
def ChannelState.takeAnswer (p : Params) (a : Option Byte) (c : ChannelState) : ChannelState :=
  match a with
  | none => c
  | some b => c.feed p b

/-- One poll, whatever the answer. -/
theorem State.pollChannel_eq (s : State) (ch : Nat) :
    s.pollChannel ch =
      { s with
        rx := s.rx.set ch (s.rxLine ch).tail
        calls := s.calls ++ pollCalls ch (s.pollAnswer ch)
        channels := s.channels.modify ch (ChannelState.takeAnswer s.params (s.pollAnswer ch)) } := by
  unfold State.pollChannel
  cases h : s.pollAnswer ch with
  | none =>
    have hid : s.channels.modify ch (ChannelState.takeAnswer s.params none) = s.channels := by
      apply List.ext_getElem?
      intro j
      rw [List.getElem?_modify]
      split
      · cases s.channels[j]? <;> rfl
      · cases s.channels[j]? <;> rfl
    rw [hid]; rfl
  | some b =>
    simp only [State.onChannel_eq]
    simp [State.log, State.popRx, State.setRx, State.setChannels, pollCalls,
      List.append_assoc]
    rfl

/-- The answer a channel gets does not depend on the polls of other channels. -/
theorem rxLine_set_ne {s t : State} {ch j : Nat} {l : List (Option Byte)}
    (h : t.rx = s.rx.set ch l) (hne : ch ≠ j) : t.rxLine j = s.rxLine j := by
  unfold State.rxLine
  rw [h, List.getD_eq_getElem?_getD, List.getD_eq_getElem?_getD, List.getElem?_set_ne hne]

theorem rxLine_set_eq {s t : State} {ch : Nat} (h : t.rx = s.rx.set ch (s.rxLine ch).tail) :
    t.rxLine ch = (s.rxLine ch).tail := by
  unfold State.rxLine at h ⊢
  rw [h, List.getD_eq_getElem?_getD, List.getD_eq_getElem?_getD, List.getElem?_set]
  by_cases hlt : ch < s.rx.length
  · simp [hlt]
  · simp [hlt]

/-- One burst iteration: every channel takes its next answer, and the polls are logged in ascending
order (R195, R74). -/
theorem State.sweep_eq (s : State) :
    s.forChannels State.pollChannel =
      { s with
        rx := s.rx.mapIdx fun ch l => if ch < s.nCh then l.tail else l
        calls := s.calls ++ (List.range s.nCh).flatMap fun ch => pollCalls ch (s.pollAnswer ch)
        channels := s.channels.mapIdx fun ch c => c.takeAnswer s.params (s.pollAnswer ch) } := by
  have key : ∀ n, (List.range n).foldl (fun t ch => State.pollChannel ch t) s =
      { s with
        rx := s.rx.mapIdx fun ch l => if ch < n then l.tail else l
        calls := s.calls ++ (List.range n).flatMap fun ch => pollCalls ch (s.pollAnswer ch)
        channels := s.channels.mapIdx fun ch c =>
          if ch < n then c.takeAnswer s.params (s.pollAnswer ch) else c } := by
    intro n
    induction n with
    | zero =>
      have h1 : s.rx.mapIdx (fun ch l => if ch < 0 then l.tail else l) = s.rx := by
        apply List.ext_getElem?; intro j; rw [List.getElem?_mapIdx]; simp
      have h2 : (s.channels.mapIdx fun ch c =>
          if ch < 0 then c.takeAnswer s.params (s.pollAnswer ch) else c) = s.channels := by
        apply List.ext_getElem?; intro j; rw [List.getElem?_mapIdx]; simp
      rw [h1, h2]; simp
    | succ n ih =>
      rw [List.range_succ, List.foldl_append, ih, List.foldl_cons, List.foldl_nil,
        State.pollChannel_eq]
      generalize ht : ({ s with
        rx := s.rx.mapIdx fun ch l => if ch < n then l.tail else l
        calls := s.calls ++ (List.range n).flatMap fun ch => pollCalls ch (s.pollAnswer ch)
        channels := s.channels.mapIdx fun ch c =>
          if ch < n then c.takeAnswer s.params (s.pollAnswer ch) else c } : State) = t
      have hline : t.rxLine n = s.rxLine n := by
        rw [← ht]
        simp only [State.rxLine, List.getD_eq_getElem?_getD, List.getElem?_mapIdx]
        cases s.rx[n]? <;> simp
      have hans : t.pollAnswer n = s.pollAnswer n := by
        unfold State.pollAnswer; rw [hline]
      have hp : t.params = s.params := by rw [← ht]
      rw [hans, hline, hp, ← ht]
      congr 1
      · apply List.ext_getElem?
        intro j
        rw [List.getElem?_modify, List.getElem?_mapIdx, List.getElem?_mapIdx]
        cases s.channels[j]? with
        | none => simp
        | some c =>
          by_cases hj : n = j
          · subst hj; simp
          · have : j < n + 1 ↔ j < n := by omega
            simp [hj, this]
      · apply List.ext_getElem?
        intro j
        rw [List.getElem?_set, List.getElem?_mapIdx, List.getElem?_mapIdx]
        by_cases hj : n = j
        · subst hj
          simp only [if_true, List.length_mapIdx, State.rxLine, List.getD_eq_getElem?_getD]
          cases h : s.rx[n]? with
          | none => simp [List.getElem?_eq_none_iff.mp h]
          | some l =>
            obtain ⟨hl, _⟩ := List.getElem?_eq_some_iff.mp h
            simp [hl]
        · have : j < n + 1 ↔ j < n := by omega
          simp [hj, this]
      · simp [List.append_assoc]
  unfold State.forChannels
  rw [key]
  congr 1
  apply List.ext_getElem?
  intro j
  rw [List.getElem?_mapIdx, List.getElem?_mapIdx]
  by_cases h : j < s.channels.length
  · simp [State.nCh, h]
  · simp [List.getElem?_eq_none (Nat.le_of_not_lt h)]

/-- The parameters do not change inside the conversion loop. -/
theorem State.checkPacketLoop_eq (s : State) :
    (s.forChannels fun ch t => t.onChannel ch (ChannelState.checkPacket t.params)) =
      s.setChannels (s.channels.map (ChannelState.checkPacket s.params)) := by
  have key : ∀ (l : List Nat) (t : State), t.params = s.params →
      l.foldl (fun t ch => t.onChannel ch (ChannelState.checkPacket t.params)) t =
        l.foldl (fun t ch => t.onChannel ch (ChannelState.checkPacket s.params)) t := by
    intro l
    induction l with
    | nil => intro t _; rw [List.foldl_nil, List.foldl_nil]
    | cons a l ih =>
      intro t ht
      rw [List.foldl_cons, List.foldl_cons, ih _ ((State.onChannel_params _ _ _).trans ht), ht]
  rw [← State.forChannels_onChannel]
  unfold State.forChannels
  exact key _ _ rfl

end Sys2Proof.Machine
end

