-- ==== Sys2Proof/Laws/Lanes.lean ====
section
/-! SUPPORT. What an instruction can do, once: the effect of each instruction but INIT on one channel as
one inductive relation, and the inversion of `exec` over all instructions: what it leaves of each
channel and of the rest of the state. Whole-machine proofs cite these and do not split `exec` again. -/

namespace Sys2Proof.Machine

/-- Several answers of the byte source, one after the other. -/
def ChannelState.takeAnswers (p : Params) (l : List (Option Byte)) (c : ChannelState) :
    ChannelState :=
  l.foldl (fun d a => d.takeAnswer p a) c

/-- All an instruction other than INIT can do to channel `k`, given the parameters. -/
inductive LaneEffect (p : Params) (k : Nat) : Instr → ChannelState → ChannelState → Prop
  /-- The channel is not touched. -/
  | same {i : Instr} {c : ChannelState} : LaneEffect p k i c c
  /-- RX1.ACC. -/
  | accept1 {i : Instr} {c : ChannelState} (d : BitVec 6) (h : c.rxState = .awaitingByte1) :
      LaneEffect p k i c (c.accept1 d)
  /-- A reject in AwaitingByte1. -/
  | countFraming {i : Instr} {c : ChannelState} (h : c.rxState = .awaitingByte1) :
      LaneEffect p k i c (c.countFraming p)
  /-- RX2.ACC. -/
  | accept2 {i : Instr} {c : ChannelState} (d : BitVec 6) (h : c.rxState = .awaitingByte2) :
      LaneEffect p k i c (c.accept2 d)
  /-- A reject in AwaitingByte2 or AwaitingByte3. -/
  | desync {i : Instr} {c : ChannelState} (h : c.rxState ≠ .awaitingByte1) :
      LaneEffect p k i c c.desync
  /-- RX3.ACC. -/
  | accept3 {i : Instr} {c : ChannelState} (d : BitVec 4) (h : c.rxState = .awaitingByte3) :
      LaneEffect p k i c (c.accept3 p d)
  /-- The drain of CheckNewData. -/
  | drain {i : Instr} {c : ChannelState} (l : List (Option Byte)) (h : l.length = 3)
      (hi : i = .process ∨ i = .sCheckNewData) : LaneEffect p k i c (c.takeAnswers p l)
  /-- The error arm. -/
  | flagSentinel {c : ChannelState} (h : c.rawOperand p = Config.errSentinel) :
      LaneEffect p k (.convertErr k) c (c.flagSentinel p)
  /-- The OK arm. -/
  | convertOk {c : ChannelState} (r : BitVec 16) (h : c.rawOperand p = r)
      (hr : r ≠ Config.errSentinel) : LaneEffect p k (.convertOk k r) c (c.convertOk r)
  /-- CONVERT. -/
  | convert {c : ChannelState} : LaneEffect p k (.convert k) c (c.convert p)
  /-- The action of CheckNewPacket. -/
  | checkPacket {i : Instr} {c : ChannelState} (hi : i = .process ∨ i = .sCheckNewPacket) :
      LaneEffect p k i c (c.checkPacket p)
  /-- FILTER and its update arm. -/
  | filter {i : Instr} {c : ChannelState} (hi : i = .filter k ∨ i = .filterUpd k) :
      LaneEffect p k i c c.filter
  /-- The action of FilterPacket. -/
  | filterPacket {i : Instr} {c : ChannelState} (hi : i = .process ∨ i = .sFilterPacket) :
      LaneEffect p k i c c.filterPacket
  /-- The three data steps of a fused PROCESS. -/
  | fused {c : ChannelState} (l : List (Option Byte)) (h : l.length = 3) :
      LaneEffect p k .process c ((c.takeAnswers p l).checkPacket p).filterPacket

/-! ### The parts -/

/-- The drain: each channel takes three answers; the fields it does not name are as they were. -/
theorem State.drain_lanes (s : State) :
    s.drain.schedState = s.schedState ∧ s.drain.debounceCounter = s.debounceCounter ∧
      s.drain.params = s.params ∧ s.drain.queue = s.queue ∧ s.drain.nCh = s.nCh ∧
      ∀ (k : Nat) (c : ChannelState), s.channels[k]? = some c →
        ∃ l : List (Option Byte), l.length = 3 ∧
          s.drain.channels[k]? = some (c.takeAnswers s.params l) := by
  have h3 : s.drain =
      ((s.forChannels State.pollChannel).forChannels State.pollChannel).forChannels
        State.pollChannel := rfl
  rw [h3]
  have e1 := State.sweep_eq s
  generalize s.forChannels State.pollChannel = u at e1
  have e2 := State.sweep_eq u
  generalize u.forChannels State.pollChannel = v at e2
  have e3 := State.sweep_eq v
  generalize v.forChannels State.pollChannel = w at e3
  have hu : u.params = s.params := by rw [e1]
  have hv : v.params = s.params := by rw [e2]; exact hu
  have hw : w.params = s.params := by rw [e3]; exact hv
  refine ⟨?_, ?_, hw, ?_, ?_, ?_⟩
  · rw [e3]; show v.schedState = _; rw [e2]; show u.schedState = _; rw [e1]
  · rw [e3]; show v.debounceCounter = _; rw [e2]; show u.debounceCounter = _; rw [e1]
  · rw [e3]; show v.queue = _; rw [e2]; show u.queue = _; rw [e1]
  · have h1 : u.nCh = s.nCh := by rw [e1]; simp [State.nCh]
    have h2 : v.nCh = u.nCh := by rw [e2]; simp [State.nCh]
    have h3 : w.nCh = v.nCh := by rw [e3]; simp [State.nCh]
    omega
  · intro k c hc
    refine ⟨[s.pollAnswer k, u.pollAnswer k, v.pollAnswer k], rfl, ?_⟩
    have c1 : u.channels[k]? = some (c.takeAnswer s.params (s.pollAnswer k)) := by
      rw [e1]; simp [List.getElem?_mapIdx, hc]
    have c2 : v.channels[k]? =
        some ((c.takeAnswer s.params (s.pollAnswer k)).takeAnswer s.params (u.pollAnswer k)) := by
      rw [e2]; simp [List.getElem?_mapIdx, c1, hu]
    rw [e3]; simp [List.getElem?_mapIdx, c2, hv, ChannelState.takeAnswers]

theorem State.stepCheckNewPacket_eq (s : State) :
    s.stepCheckNewPacket =
      (s.setChannels (s.channels.map (ChannelState.checkPacket s.params))).setSched
        .filterPacket := by
  unfold State.stepCheckNewPacket; rw [State.checkPacketLoop_eq]

theorem State.stepFilterPacket_eq (s : State) :
    s.stepFilterPacket =
      (s.setChannels (s.channels.map ChannelState.filterPacket)).setSched .checkNewData := by
  unfold State.stepFilterPacket; rw [State.forChannels_onChannel]

/-- One byte is one of the twelve transitions (R120). -/
theorem LaneEffect.feed (p : Params) (k : Nat) (i : Instr) (b : Byte) (c : ChannelState) :
    LaneEffect p k i c (c.feed p b) := by
  unfold ChannelState.feed
  cases h : c.rxState <;> cases tagOf b
  · exact .accept1 _ h
  · exact .countFraming h
  · exact .countFraming h
  · exact .countFraming h
  · exact .desync (by simp [h])
  · exact .accept2 _ h
  · exact .desync (by simp [h])
  · exact .desync (by simp [h])
  · exact .desync (by simp [h])
  · exact .desync (by simp [h])
  · exact .accept3 _ h
  · exact .desync (by simp [h])

/-- What an instruction leaves: the frame all instructions but INIT share, and one effect a channel. -/
structure Leaves (i : Instr) (s t : State) : Prop where
  params : t.params = s.params
  queue : t.queue = s.queue
  nCh : t.nCh = s.nCh
  lane : ∀ (k : Nat) (c : ChannelState), s.channels[k]? = some c →
    ∃ c', t.channels[k]? = some c' ∧ LaneEffect s.params k i c c'

theorem Leaves.refl (i : Instr) (s : State) : Leaves i s s :=
  ⟨rfl, rfl, rfl, fun _ c hc => ⟨c, hc, .same⟩⟩

/-- A state with the same channels leaves every channel alone. -/
theorem Leaves.of_channels {i : Instr} {s t : State} (hp : t.params = s.params)
    (hq : t.queue = s.queue) (hc : t.channels = s.channels) : Leaves i s t :=
  ⟨hp, hq, by unfold State.nCh; rw [hc], fun _ c h => ⟨c, by rw [hc]; exact h, .same⟩⟩

theorem Leaves.onChannel {i : Instr} {s : State} {ch : Nat} {f : ChannelState → ChannelState}
    (h : ∀ c, LaneEffect s.params ch i c (f c)) : Leaves i s (s.onChannel ch f) := by
  refine ⟨by simp, by simp, by simp, fun k c hc => ?_⟩
  rw [State.onChannel_channels, List.getElem?_modify, hc]
  by_cases hk : ch = k
  · subst hk; exact ⟨f c, by simp, h c⟩
  · exact ⟨c, by simp [hk], .same⟩

theorem Leaves.mapped {i : Instr} {s t : State} {f : ChannelState → ChannelState}
    (hp : t.params = s.params) (hq : t.queue = s.queue) (hc : t.channels = s.channels.map f)
    (h : ∀ k c, LaneEffect s.params k i c (f c)) : Leaves i s t :=
  ⟨hp, hq, by unfold State.nCh; rw [hc, List.length_map], fun k c hk =>
    ⟨f c, by rw [hc, List.getElem?_map, hk]; rfl, h k c⟩⟩

theorem Leaves.checkNewData {i : Instr} (s : State) (hi : i = .process ∨ i = .sCheckNewData) :
    Leaves i s s.stepCheckNewData := by
  obtain ⟨-, -, hp, hq, hn, hl⟩ := State.drain_lanes s
  refine ⟨hp, hq, hn, fun k c hc => ?_⟩
  obtain ⟨l, h3, hk⟩ := hl k c hc
  exact ⟨_, hk, .drain l h3 hi⟩

theorem Leaves.checkNewPacket {i : Instr} (s : State)
    (hi : i = .process ∨ i = .sCheckNewPacket) : Leaves i s s.stepCheckNewPacket := by
  rw [State.stepCheckNewPacket_eq]
  exact .mapped rfl rfl rfl fun _ _ => .checkPacket hi

theorem Leaves.filterPacket {i : Instr} (s : State) (hi : i = .process ∨ i = .sFilterPacket) :
    Leaves i s s.stepFilterPacket := by
  rw [State.stepFilterPacket_eq]
  exact .mapped rfl rfl rfl fun _ _ => .filterPacket hi

theorem State.stepInitLaser_eq (s : State) :
    s.stepInitLaser =
      ({ s with calls := s.calls ++ (List.range s.nCh).map fun ch => .writeBytes ch s.params.initCmd
        } : State).setSched .waitInitDone := by
  have key : ∀ (l : List Nat) (t : State), t.params = s.params →
      l.foldl (fun t ch => t.writeBytes ch t.params.initCmd) t =
        l.foldl (fun t ch => t.log (.writeBytes ch s.params.initCmd)) t := by
    intro l
    induction l with
    | nil => intro t _; rw [List.foldl_nil, List.foldl_nil]
    | cons a l ih =>
      intro t ht
      rw [List.foldl_cons, List.foldl_cons, ih _ (by exact ht), State.writeBytes, ht]
  have h := State.forChannels_log s fun ch => ExtCall.writeBytes ch s.params.initCmd
  unfold State.forChannels at h
  unfold State.stepInitLaser State.forChannels
  rw [key _ _ rfl, h]

theorem Leaves.process (s : State) : Leaves .process s s.process := by
  unfold State.process
  cases s.schedState <;> dsimp only
  · exact .of_channels rfl rfl rfl
  · unfold State.stepWaitLaserReset
    split
    · exact .of_channels rfl rfl rfl
    · exact .refl _ s
  · rw [State.stepInitLaser_eq]; exact .of_channels rfl rfl rfl
  · unfold State.stepWaitInitDone
    split
    · exact .of_channels rfl rfl rfl
    · exact .of_channels rfl rfl rfl
  · unfold State.processCheckNewData
    split
    · exact .checkNewData s (.inl rfl)
    · obtain ⟨-, -, hp, hq, hn, hl⟩ := State.drain_lanes s
      rw [State.stepFilterPacket_eq, State.stepCheckNewPacket_eq]
      refine ⟨hp, hq, ?_, fun k c hc => ?_⟩
      · simpa [State.nCh, State.stepCheckNewData] using hn
      · obtain ⟨l, h3, hk⟩ := hl k c hc
        refine ⟨_, ?_, .fused l h3⟩
        simp [State.stepCheckNewData, hk, hp]
  · exact .checkNewPacket s (.inl rfl)
  · exact .filterPacket s (.inl rfl)

/-- A guarded decoder row. -/
theorem LaneEffect.whenRx {p : Params} {k : Nat} {i : Instr} {c : ChannelState} {rx : RxState}
    {f : ChannelState → ChannelState} (h : c.rxState = rx → LaneEffect p k i c (f c)) :
    LaneEffect p k i c (c.whenRx rx f) := by
  unfold ChannelState.whenRx
  split
  · rename_i hr; exact h hr
  · exact .same

theorem Leaves.whenSched {i : Instr} {s : State} {st : SchedState} {f : State → State}
    (h : Leaves i s (f s)) : Leaves i s (s.whenSched st f) := by
  unfold State.whenSched
  split
  · exact h
  · exact .refl i s

/-- Every instruction but INIT answers a next state, and leaves what `Leaves` says. -/
theorem exec_leaves (i : Instr) (s : State) (hi : i ≠ .init) :
    ∃ t, exec i s = .next t ∧ Leaves i s t := by
  cases i with
  | init => exact absurd rfl hi
  | rx1Acc ch d => exact ⟨_, rfl, .onChannel fun c => .whenRx fun h => .accept1 d h⟩
  | rx1Rej01 ch x => exact ⟨_, rfl, .onChannel fun c => .whenRx fun h => .countFraming h⟩
  | rx1Rej10 ch x => exact ⟨_, rfl, .onChannel fun c => .whenRx fun h => .countFraming h⟩
  | rx1Rej11 ch x => exact ⟨_, rfl, .onChannel fun c => .whenRx fun h => .countFraming h⟩
  | rx2Acc ch d => exact ⟨_, rfl, .onChannel fun c => .whenRx fun h => .accept2 d h⟩
  | rx2Rej00 ch x => exact ⟨_, rfl, .onChannel fun c => .whenRx fun h => .desync (by simp [h])⟩
  | rx2Rej10 ch x => exact ⟨_, rfl, .onChannel fun c => .whenRx fun h => .desync (by simp [h])⟩
  | rx2Rej11 ch x => exact ⟨_, rfl, .onChannel fun c => .whenRx fun h => .desync (by simp [h])⟩
  | rx3Acc ch rr d => exact ⟨_, rfl, .onChannel fun c => .whenRx fun h => .accept3 d h⟩
  | rx3Rej00 ch x => exact ⟨_, rfl, .onChannel fun c => .whenRx fun h => .desync (by simp [h])⟩
  | rx3Rej01 ch x => exact ⟨_, rfl, .onChannel fun c => .whenRx fun h => .desync (by simp [h])⟩
  | rx3Rej11 ch x => exact ⟨_, rfl, .onChannel fun c => .whenRx fun h => .desync (by simp [h])⟩
  | sReset => exact ⟨_, rfl, .whenSched (.of_channels rfl rfl rfl)⟩
  | sWaitLaserReset =>
    refine ⟨_, rfl, .whenSched ?_⟩
    unfold State.stepWaitLaserReset
    split
    · exact .of_channels rfl rfl rfl
    · exact .refl _ s
  | sInitLaser =>
    refine ⟨_, rfl, .whenSched ?_⟩
    rw [State.stepInitLaser_eq]; exact .of_channels rfl rfl rfl
  | sWaitInitDone =>
    refine ⟨_, rfl, .whenSched ?_⟩
    unfold State.stepWaitInitDone
    split
    · exact .of_channels rfl rfl rfl
    · exact .of_channels rfl rfl rfl
  | sCheckNewData => exact ⟨_, rfl, .whenSched (.checkNewData s (.inr rfl))⟩
  | sCheckNewPacket => exact ⟨_, rfl, .whenSched (.checkNewPacket s (.inr rfl))⟩
  | sFilterPacket => exact ⟨_, rfl, .whenSched (.filterPacket s (.inr rfl))⟩
  | convertErr ch =>
    refine ⟨_, rfl, .onChannel fun c => ?_⟩
    split
    · rename_i h; exact .flagSentinel h
    · exact .same
  | convertOk ch raw =>
    refine ⟨_, rfl, .onChannel fun c => ?_⟩
    split
    · rename_i h; exact .convertOk raw h.1 h.2
    · exact .same
  | filterHold ch =>
    refine ⟨_, rfl, .onChannel fun c => ?_⟩
    split
    · exact .same
    · exact .same
  | filterUpd ch =>
    refine ⟨_, rfl, .onChannel fun c => ?_⟩
    split
    · exact .same
    · rename_i h
      have he : c.filter = c.filterUpd := if_neg h
      rw [← he]; exact .filter (.inr rfl)
  | tick => exact ⟨_, rfl, .of_channels rfl rfl rfl⟩
  | process => exact ⟨_, rfl, .process s⟩
  | getDist ch =>
    simp only [exec, execGetDist]
    split
    · exact ⟨_, rfl, .of_channels rfl rfl rfl⟩
    · exact ⟨_, rfl, .of_channels rfl rfl rfl⟩
  | getErr ch =>
    simp only [exec, execGetErr]
    split
    · exact ⟨_, rfl, .of_channels rfl rfl rfl⟩
    · exact ⟨_, rfl, .of_channels rfl rfl rfl⟩
  | feed ch b => exact ⟨_, rfl, .onChannel fun c => .feed _ _ _ b c⟩
  | convert ch => exact ⟨_, rfl, .onChannel fun c => .convert⟩
  | filter ch => exact ⟨_, rfl, .onChannel fun c => .filter (.inl rfl)⟩

/-- INIT, as one update. -/
theorem exec_init_eq (s : State) :
    exec .init s =
      .next { s with
        schedState := .reset
        debounceCounter := 0
        calls := s.calls ++ (List.range s.nCh).map .faultInit
        channels := List.replicate s.nCh (ChannelState.reset s.params.faultInit) } := by
  show Host.Outcome.next _ = _
  congr 1
  rw [State.forChannels_log]
  rfl

end Sys2Proof.Machine
end

