-- ==== Sys2Proof/Laws/Numeric.lean ====
section
/-! SUPPORT. The first facts about the numeric model: the subtraction is the subtraction, `conv` is its
rule's formula, and the gate is a comparison of integers. -/

namespace Sys2Proof.Machine.Num

@[simp] theorem minus_eq (a b : Nat) : minus a b = (a : Int) - (b : Int) := by
  unfold minus; split <;> omega

/-- R12, R153: `conv(r) = rne32((17*r - 10920) / 21840)`. -/
theorem conv_eq (r : BitVec 16) : conv r = rne32 (17 * (r.toNat : Int) - 10920) 21840 := by
  unfold conv; rw [minus_eq]; push_cast; rfl

theorem geGate_iff_scaled (d : F32) : geGate d = true ↔ 50 * 2 ^ 149 ≤ scaled d := by
  unfold geGate; exact decide_eq_true_iff

theorem scaled_zero : scaled 0 = 0 := by decide

/-- The integer nearest to an exact quotient is the quotient. -/
theorem rneDiv_exact (q : Nat) {d : Nat} (hd : 0 < d) : rneDiv (q * d) d = q := by
  unfold rneDiv
  rw [Nat.mul_mod_left, Nat.mul_div_cancel q hd]
  simp [hd]

end Sys2Proof.Machine.Num
end

