-- ==== Sys2Proof/Laws/PerInstr.lean ====
section
/-! SUPPORT. The per-instruction family TableRow: the encoder writes, for every well-formed
instruction, a key of its opcode-table row's format that matches the row's match and mask (R99). -/

namespace Sys2Proof.Laws.TableRow

/-- The encoding of `i` lies in the row of `i`. -/
def Statement (i : Instr) : Prop :=
  i.wellFormed = true →
    (encode i).format = i.row.format ∧ (encode i).key &&& i.row.mask = i.row.value

/-- A key of format W, masked with 0x3C0, is its state code and tag. -/
theorem wireCmd_key (ch : Nat) (rx : RxState) (tag : BitVec 2) (low : BitVec 6) :
    (wireCmd ch rx tag low).key &&& 0x3C0 = (rxCode rx ++ tag ++ (0 : BitVec 6)).setWidth 16 := by
  show (rxCode rx ++ tag ++ low).setWidth 16 &&& 0x3C0 = _
  generalize rxCode rx = code
  apply BitVec.eq_of_getLsbD_eq
  intro i hi
  simp only [BitVec.getLsbD_and, BitVec.getLsbD_setWidth, BitVec.getLsbD_append]
  interval_cases i <;> simp

theorem rx1Acc (ch : Nat) (d : BitVec 6) : Statement (.rx1Acc ch d) := fun _ =>
  ⟨rfl, (wireCmd_key _ _ _ _).trans rfl⟩

theorem rx1Rej01 (ch : Nat) (x : BitVec 6) : Statement (.rx1Rej01 ch x) := fun _ =>
  ⟨rfl, (wireCmd_key _ _ _ _).trans rfl⟩

theorem rx1Rej10 (ch : Nat) (x : BitVec 6) : Statement (.rx1Rej10 ch x) := fun _ =>
  ⟨rfl, (wireCmd_key _ _ _ _).trans rfl⟩

theorem rx1Rej11 (ch : Nat) (x : BitVec 6) : Statement (.rx1Rej11 ch x) := fun _ =>
  ⟨rfl, (wireCmd_key _ _ _ _).trans rfl⟩

theorem rx2Acc (ch : Nat) (d : BitVec 6) : Statement (.rx2Acc ch d) := fun _ =>
  ⟨rfl, (wireCmd_key _ _ _ _).trans rfl⟩

theorem rx2Rej00 (ch : Nat) (x : BitVec 6) : Statement (.rx2Rej00 ch x) := fun _ =>
  ⟨rfl, (wireCmd_key _ _ _ _).trans rfl⟩

theorem rx2Rej10 (ch : Nat) (x : BitVec 6) : Statement (.rx2Rej10 ch x) := fun _ =>
  ⟨rfl, (wireCmd_key _ _ _ _).trans rfl⟩

theorem rx2Rej11 (ch : Nat) (x : BitVec 6) : Statement (.rx2Rej11 ch x) := fun _ =>
  ⟨rfl, (wireCmd_key _ _ _ _).trans rfl⟩

theorem rx3Acc (ch : Nat) (rr : BitVec 2) (d : BitVec 4) : Statement (.rx3Acc ch rr d) := fun _ =>
  ⟨rfl, (wireCmd_key _ _ _ _).trans rfl⟩

theorem rx3Rej00 (ch : Nat) (x : BitVec 6) : Statement (.rx3Rej00 ch x) := fun _ =>
  ⟨rfl, (wireCmd_key _ _ _ _).trans rfl⟩

theorem rx3Rej01 (ch : Nat) (x : BitVec 6) : Statement (.rx3Rej01 ch x) := fun _ =>
  ⟨rfl, (wireCmd_key _ _ _ _).trans rfl⟩

theorem rx3Rej11 (ch : Nat) (x : BitVec 6) : Statement (.rx3Rej11 ch x) := fun _ =>
  ⟨rfl, (wireCmd_key _ _ _ _).trans rfl⟩

theorem sReset : Statement .sReset := fun _ => ⟨rfl, rfl⟩

theorem sWaitLaserReset : Statement .sWaitLaserReset := fun _ => ⟨rfl, rfl⟩

theorem sInitLaser : Statement .sInitLaser := fun _ => ⟨rfl, rfl⟩

theorem sWaitInitDone : Statement .sWaitInitDone := fun _ => ⟨rfl, rfl⟩

theorem sCheckNewData : Statement .sCheckNewData := fun _ => ⟨rfl, rfl⟩

theorem sCheckNewPacket : Statement .sCheckNewPacket := fun _ => ⟨rfl, rfl⟩

theorem sFilterPacket : Statement .sFilterPacket := fun _ => ⟨rfl, rfl⟩

theorem convertErr (ch : Nat) : Statement (.convertErr ch) := fun _ =>
  ⟨rfl, by simp only [encode, Instr.row]; decide⟩

theorem convertOk (ch : Nat) (raw : BitVec 16) : Statement (.convertOk ch raw) := fun _ =>
  ⟨rfl, BitVec.and_zero⟩

theorem filterHold (ch : Nat) : Statement (.filterHold ch) := fun _ =>
  ⟨rfl, by simp only [encode, Instr.row]; decide⟩

theorem filterUpd (ch : Nat) : Statement (.filterUpd ch) := fun _ =>
  ⟨rfl, by simp only [encode, Instr.row]; decide⟩

theorem getDist (ch : Nat) : Statement (.getDist ch) := fun _ =>
  ⟨rfl, by simp only [encode, Instr.row, opCmd]; decide⟩

theorem getErr (ch : Nat) : Statement (.getErr ch) := fun _ =>
  ⟨rfl, by simp only [encode, Instr.row, opCmd]; decide⟩

theorem convert (ch : Nat) : Statement (.convert ch) := fun _ =>
  ⟨rfl, by simp only [encode, Instr.row, opCmd]; decide⟩

theorem filter (ch : Nat) : Statement (.filter ch) := fun _ =>
  ⟨rfl, by simp only [encode, Instr.row, opCmd]; decide⟩

theorem init : Statement .init := fun _ => ⟨rfl, rfl⟩

theorem tick : Statement .tick := fun _ => ⟨rfl, rfl⟩

theorem process : Statement .process := fun _ => ⟨rfl, rfl⟩

theorem feed (ch : Nat) (b : Byte) : Statement (.feed ch b) := fun _ =>
  ⟨rfl, by simp only [encode, Instr.row, opCmd]; decide⟩

end Sys2Proof.Laws.TableRow
end

