-- ==== Sys2Proof/Tests/Slice0.lean ====
section
/-! SUPPORT. The model's own tests, each a named theorem: the well-formedness smoke test, the decoding of
words written out from the spec's encodings, one-step vectors of 95_test_vectors.md, and a witness for
the hypotheses of every obligation that has some. Expected values are the spec's. -/

namespace Sys2Proof.Tests

open Sys2Proof Sys2Proof.Machine

/-! ### Small states -/

/-- The parameters at the defaults of R9 with concrete values for the open ones. -/
def par : Params where
  ctrW := 32
  debW := 32
  rawLatch := .atCompletion
  passMode := .oneState
  initCmd := [0x24, 0x0D]
  initDoneRest := true
  faultInit := ⟨7⟩

/-- A channel as in vector 2.1: `rf=[1,2,3] raw=7 npr=0 fec=4`, in a given decoder position. -/
def chan (rx : RxState) : ChannelState :=
  { ChannelState.reset ⟨7⟩ with
    rxState := rx, rawFrame0 := 1, rawFrame1 := 2, rawFrame2 := 3, raw18 := 7
    framingErrorCount := 4 }

/-- A channel as in vector 2.3: `err=1 nda=0 esc=2 dist=1.0`, with a given raw value. -/
def rawChan (r : BitVec 16) : ChannelState :=
  { ChannelState.reset ⟨7⟩ with
    raw18 := r, errorFlag := true, errorSentinelCount := 2, distanceMm := 0x3F800000 }

/-- A channel as in vector 2.4: `filt` before is 7.0, with given `prev` and `dist`. -/
def filtChan (prev dist : F32) : ChannelState :=
  { ChannelState.reset ⟨7⟩ with
    filteredValue := 0x40E00000, previousValue := prev, distanceMm := dist }

/-- One channel in a given scheduler state. -/
def one (st : SchedState) (c : ChannelState) : State :=
  { State.resetWith 1 par with schedState := st, channels := [c] }

/-- Two channels in a given scheduler state. -/
def two (st : SchedState) (c d : ChannelState) : State :=
  { State.resetWith 2 par with schedState := st, channels := [c, d] }

/-- The next state, where there is one. -/
def stateOf (o : Host.Outcome State Fault Refusal) : Option State :=
  match o with
  | .next t => some t
  | .fault _ => none
  | .refused _ => none

/-- The channels of the next state. -/
def chansOf (o : Host.Outcome State Fault Refusal) : Option (List ChannelState) :=
  (stateOf o).map State.channels

/-- Scheduler state and counter of the next state. -/
def schedOf (o : Host.Outcome State Fault Refusal) : Option (SchedState × Nat) :=
  (stateOf o).map fun t => (t.schedState, t.debounceCounter)

/-- The instruction a command decodes to. -/
def instrOf (c : Cmd) : Option Instr :=
  match decode c with
  | .ok i => some i
  | .error _ => none

/-- The command is refused as one without a row, or as a reserved operation code. -/
def errorOf (c : Cmd) : Option DecodeError :=
  match decode c with
  | .ok _ => none
  | .error e => some e

/-! ### Well-formedness: an ill-formed term for the one check -/

theorem test_wellFormed_refuses_the_sentinel_key :
    (Instr.convertOk 0 65467).wellFormed = false := by decide

theorem test_wellFormed_accepts_its_neighbours :
    (Instr.convertOk 0 65466).wellFormed = true ∧ (Instr.convertOk 0 65468).wellFormed = true := by
  decide

/-! ### Decoding: every constructor by a word written out from R90, R91, R95, R97, R99 -/

/-- Format W in AwaitingByte1 (code 00): tags 00, 01, 10, 11 over data 000101. -/
theorem test_decode_awaitingByte1 :
    instrOf ⟨.W, 0b0000000101, 1, 0⟩ = some (.rx1Acc 1 5) ∧
      instrOf ⟨.W, 0b0001000101, 1, 0⟩ = some (.rx1Rej01 1 5) ∧
      instrOf ⟨.W, 0b0010000101, 1, 0⟩ = some (.rx1Rej10 1 5) ∧
      instrOf ⟨.W, 0b0011000101, 1, 0⟩ = some (.rx1Rej11 1 5) := by decide

/-- Format W in AwaitingByte2 (code 01). -/
theorem test_decode_awaitingByte2 :
    instrOf ⟨.W, 0b0100111000, 0, 0⟩ = some (.rx2Rej00 0 56) ∧
      instrOf ⟨.W, 0b0101111000, 0, 0⟩ = some (.rx2Acc 0 56) ∧
      instrOf ⟨.W, 0b0110111000, 0, 0⟩ = some (.rx2Rej10 0 56) ∧
      instrOf ⟨.W, 0b0111111000, 0, 0⟩ = some (.rx2Rej11 0 56) := by decide

/-- Format W in AwaitingByte3 (code 10); the third byte has reserved bits 10 over data 0110. -/
theorem test_decode_awaitingByte3 :
    instrOf ⟨.W, 0b1000100110, 0, 0⟩ = some (.rx3Rej00 0 38) ∧
      instrOf ⟨.W, 0b1001100110, 0, 0⟩ = some (.rx3Rej01 0 38) ∧
      instrOf ⟨.W, 0b1010100110, 0, 0⟩ = some (.rx3Acc 0 0b10 6) ∧
      instrOf ⟨.W, 0b1011100110, 0, 0⟩ = some (.rx3Rej11 0 38) := by decide

/-- Format S, the seven scheduler codes of R97. -/
theorem test_decode_scheduler_steps :
    instrOf ⟨.S, 0b000, 0, 0⟩ = some .sReset ∧
      instrOf ⟨.S, 0b001, 0, 0⟩ = some .sWaitLaserReset ∧
      instrOf ⟨.S, 0b010, 0, 0⟩ = some .sInitLaser ∧
      instrOf ⟨.S, 0b011, 0, 0⟩ = some .sWaitInitDone ∧
      instrOf ⟨.S, 0b100, 0, 0⟩ = some .sCheckNewData ∧
      instrOf ⟨.S, 0b101, 0, 0⟩ = some .sCheckNewPacket ∧
      instrOf ⟨.S, 0b110, 0, 0⟩ = some .sFilterPacket := by decide

/-- Format C: 0xFFBB is the sentinel, binary 1111 111110 111011 (R95); its neighbours convert. -/
theorem test_decode_conversion_arms :
    instrOf ⟨.C, 0b1111111110111011, 0, 0⟩ = some (.convertErr 0) ∧
      instrOf ⟨.C, 0xFFBA, 0, 0⟩ = some (.convertOk 0 65466) ∧
      instrOf ⟨.C, 0xFFBC, 0, 0⟩ = some (.convertOk 0 65468) := by decide

/-- Format G: the gate bit. -/
theorem test_decode_filter_arms :
    instrOf ⟨.G, 1, 0, 0⟩ = some (.filterHold 0) ∧ instrOf ⟨.G, 0, 0, 0⟩ = some (.filterUpd 0) := by
  decide

/-- Format OP: the eight operation codes of R97. -/
theorem test_decode_operations :
    instrOf ⟨.OP, 0x1, 1, 9⟩ = some .init ∧ instrOf ⟨.OP, 0x2, 1, 9⟩ = some .tick ∧
      instrOf ⟨.OP, 0x3, 1, 9⟩ = some .process ∧ instrOf ⟨.OP, 0x4, 1, 9⟩ = some (.getDist 1) ∧
      instrOf ⟨.OP, 0x5, 1, 9⟩ = some (.getErr 1) ∧ instrOf ⟨.OP, 0x8, 1, 9⟩ = some (.feed 1 9) ∧
      instrOf ⟨.OP, 0x9, 1, 9⟩ = some (.convert 1) ∧
      instrOf ⟨.OP, 0xA, 1, 9⟩ = some (.filter 1) := by decide

/-- Keys without a row (R96, R97, U5): `rxState` code 3, `schedState` code 7, a key too wide. -/
theorem test_decode_refuses_keys_without_a_row :
    errorOf ⟨.W, 0b1100000000, 0, 0⟩ = some (.noRow .W 0x300) ∧
      errorOf ⟨.S, 0b111, 0, 0⟩ = some (.noRow .S 7) ∧
      errorOf ⟨.G, 2, 0, 0⟩ = some (.noRow .G 2) := by decide

/-- The reserved operation codes at their boundaries (R97, R225). -/
theorem test_decode_names_reserved_codes :
    errorOf ⟨.OP, 0x0, 0, 0⟩ = some (.reservedOp 0) ∧
      errorOf ⟨.OP, 0x6, 0, 0⟩ = some (.reservedOp 6) ∧
      errorOf ⟨.OP, 0x7, 0, 0⟩ = some (.reservedOp 7) ∧
      errorOf ⟨.OP, 0xB, 0, 0⟩ = some (.reservedOp 11) ∧
      errorOf ⟨.OP, 0xF, 0, 0⟩ = some (.reservedOp 15) := by decide

/-- `enc(r)` of R94, vector 2.2. -/
theorem test_encSample :
    encSample 69 = (0x05, 0x41, 0x80) ∧ encSample 32760 = (0x38, 0x7F, 0x87) ∧
      encSample 65467 = (0x3B, 0x7E, 0x8F) := by decide

/-- Table words as the host numbers them: 10 bits, then the same rows in whole bytes. -/
theorem test_decodeTableWord :
    decodeTableWord 10 0x280 = some (.rx3Acc 0 0 0) ∧
      decodeTableWord 16 0x280 = some (.rx3Acc 0 0 0) ∧
      decodeTableWord 16 0xFFBB = some (.convertErr 0) ∧ decodeTableWord 3 4 = some .sCheckNewData ∧
      decodeTableWord 8 0x4 = some (.getDist 0) ∧ decodeTableWord 1 1 = some (.filterHold 0) := by
  decide

/-! ### The decoder: vector 2.1, each row by its own key and by FEED of the vector's byte -/

theorem test_rx1Acc :
    chansOf (exec (.rx1Acc 0 63) (one .reset (chan .awaitingByte1))) =
        some [{ chan .awaitingByte2 with rawFrame0 := 63 }] ∧
      chansOf (exec (.feed 0 0x3F) (one .reset (chan .awaitingByte1))) =
        some [{ chan .awaitingByte2 with rawFrame0 := 63 }] := by decide

theorem test_rx1Rej01 :
    chansOf (exec (.rx1Rej01 0 1) (one .reset (chan .awaitingByte1))) =
        some [{ chan .awaitingByte1 with framingErrorCount := 5 }] ∧
      chansOf (exec (.feed 0 0x41) (one .reset (chan .awaitingByte1))) =
        some [{ chan .awaitingByte1 with framingErrorCount := 5 }] := by decide

theorem test_rx1Rej10 :
    chansOf (exec (.rx1Rej10 0 0) (one .reset (chan .awaitingByte1))) =
        some [{ chan .awaitingByte1 with framingErrorCount := 5 }] ∧
      chansOf (exec (.feed 0 0x80) (one .reset (chan .awaitingByte1))) =
        some [{ chan .awaitingByte1 with framingErrorCount := 5 }] := by decide

/-- Also at saturation: `fec = 4294967295` stays. -/
theorem test_rx1Rej11 :
    chansOf (exec (.feed 0 0xFF) (one .reset (chan .awaitingByte1))) =
        some [{ chan .awaitingByte1 with framingErrorCount := 5 }] ∧
      chansOf (exec (.rx1Rej11 0 63)
          (one .reset { chan .awaitingByte1 with framingErrorCount := 4294967295 })) =
        some [{ chan .awaitingByte1 with framingErrorCount := 4294967295 }] := by decide

theorem test_rx2Acc :
    chansOf (exec (.rx2Acc 0 63) (one .reset (chan .awaitingByte2))) =
        some [{ chan .awaitingByte3 with rawFrame1 := 63 }] ∧
      chansOf (exec (.feed 0 0x7F) (one .reset (chan .awaitingByte2))) =
        some [{ chan .awaitingByte3 with rawFrame1 := 63 }] := by decide

theorem test_rx2Rejects :
    chansOf (exec (.rx2Rej00 0 0) (one .reset (chan .awaitingByte2))) =
        some [chan .awaitingByte1] ∧
      chansOf (exec (.rx2Rej10 0 63) (one .reset (chan .awaitingByte2))) =
        some [chan .awaitingByte1] ∧
      chansOf (exec (.rx2Rej11 0 0) (one .reset (chan .awaitingByte2))) =
        some [chan .awaitingByte1] := by decide

theorem test_rx2Rejects_by_feed :
    chansOf (exec (.feed 0 0x00) (one .reset (chan .awaitingByte2))) = some [chan .awaitingByte1] ∧
      chansOf (exec (.feed 0 0xBF) (one .reset (chan .awaitingByte2))) =
        some [chan .awaitingByte1] ∧
      chansOf (exec (.feed 0 0xC0) (one .reset (chan .awaitingByte2))) =
        some [chan .awaitingByte1] := by decide

/-- `0xBF`: the reserved bits are dropped; 1 + 128 + 61440 = 61569. -/
theorem test_rx3Acc :
    chansOf (exec (.rx3Acc 0 3 15) (one .reset (chan .awaitingByte3))) =
        some [{ chan .awaitingByte1 with
          rawFrame2 := 15, raw18 := 61569, newPacketReady := true }] ∧
      chansOf (exec (.feed 0 0xBF) (one .reset (chan .awaitingByte3))) =
        some [{ chan .awaitingByte1 with
          rawFrame2 := 15, raw18 := 61569, newPacketReady := true }] := by decide

theorem test_rx3Rejects :
    chansOf (exec (.rx3Rej00 0 63) (one .reset (chan .awaitingByte3))) =
        some [chan .awaitingByte1] ∧
      chansOf (exec (.rx3Rej01 0 0) (one .reset (chan .awaitingByte3))) =
        some [chan .awaitingByte1] ∧
      chansOf (exec (.rx3Rej11 0 1) (one .reset (chan .awaitingByte3))) =
        some [chan .awaitingByte1] := by decide

theorem test_rx3Rejects_by_feed :
    chansOf (exec (.feed 0 0x3F) (one .reset (chan .awaitingByte3))) = some [chan .awaitingByte1] ∧
      chansOf (exec (.feed 0 0x40) (one .reset (chan .awaitingByte3))) =
        some [chan .awaitingByte1] ∧
      chansOf (exec (.feed 0 0xC1) (one .reset (chan .awaitingByte3))) =
        some [chan .awaitingByte1] := by decide

/-! ### The conversion: vectors 2.3 and 2.8 -/

theorem test_convertErr :
    chansOf (exec (.convertErr 0) (one .reset (rawChan 65467))) =
        some [{ rawChan 65467 with errorFlag := true, errorSentinelCount := 3 }] ∧
      chansOf (exec (.convertErr 0)
          (one .reset { rawChan 65467 with errorSentinelCount := 4294967295 })) =
        some [{ rawChan 65467 with errorSentinelCount := 4294967295 }] := by decide

theorem test_convertOk :
    chansOf (exec (.convertOk 0 69) (one .reset (rawChan 69))) =
      some [{ rawChan 69 with
        errorFlag := false, newDistanceAvailable := true, distanceMm := 0xBEE48048 }] := by decide

/-- The gate's two sides, the smallest and the largest value. -/
theorem test_conv_values :
    Num.conv 0 = 0xBF000000 ∧ Num.conv 642 = 0xB9900901 ∧ Num.conv 64877 = 0x4247FF7C ∧
      Num.conv 64878 = 0x42480048 ∧ Num.conv 65535 = 0x424A0BF5 := by decide

theorem test_convert_takes_either_arm :
    chansOf (exec (.convert 0) (one .reset (rawChan 65467))) =
        some [{ rawChan 65467 with errorSentinelCount := 3 }] ∧
      chansOf (exec (.convert 0) (one .reset (rawChan 65468))) =
        some [{ rawChan 65468 with
          errorFlag := false, newDistanceAvailable := true, distanceMm := 0x4249D68D }] := by decide

/-- Vector 2.8: without the latch CONVERT assembles 59 + 62*64 + 0*4096 = 4027. -/
theorem test_convert_without_the_latch :
    chansOf (exec (.convert 0)
        { one .reset { rawChan 69 with rawFrame0 := 59, rawFrame1 := 62, rawFrame2 := 0 } with
          params := { par with rawLatch := .atConversion } }) =
      some [{ rawChan 69 with
        rawFrame0 := 59, rawFrame1 := 62, rawFrame2 := 0, errorFlag := false
        newDistanceAvailable := true, distanceMm := 0x40289CCA }] := by decide

/-! ### The filter: vector 2.4 -/

/-- The reset distance, and exactly 50.0. -/
theorem test_filterHold :
    chansOf (exec (.filterHold 0) (one .reset (filtChan 0 0x47C34FF3))) =
        some [filtChan 0 0x47C34FF3] ∧
      chansOf (exec (.filter 0) (one .reset (filtChan 0x41200000 0x42480000))) =
        some [filtChan 0x41200000 0x42480000] := by decide

/-- 0.992*10.0 + 0.008*20.0 = 10.08, stored as 0x412147AE. -/
theorem test_filterUpd :
    chansOf (exec (.filterUpd 0) (one .reset (filtChan 0x41200000 0x41A00000))) =
      some [{ filtChan 0x41A00000 0x41A00000 with filteredValue := 0x412147AE }] := by decide

/-- Negative distances; a constant is fixed. -/
theorem test_filter :
    chansOf (exec (.filter 0) (one .reset (filtChan 0 0xBF000000))) =
        some [{ filtChan 0xBF000000 0xBF000000 with filteredValue := 0xBB83126F }] ∧
      chansOf (exec (.filter 0) (one .reset (filtChan 0x41200510 0x41200510))) =
        some [{ filtChan 0x41200510 0x41200510 with filteredValue := 0x41200510 }] := by decide

/-! ### The scheduler: vector 2.5 -/

theorem test_sReset :
    schedOf (exec .sReset { one .reset (chan .awaitingByte1) with debounceCounter := 7 }) =
      some (.waitLaserReset, 0) := by decide

/-- 50 stays, 51 goes. -/
theorem test_sWaitLaserReset :
    schedOf (exec .sWaitLaserReset
        { one .waitLaserReset (chan .awaitingByte1) with debounceCounter := 50 }) =
        some (.waitLaserReset, 50) ∧
      schedOf (exec .sWaitLaserReset
        { one .waitLaserReset (chan .awaitingByte1) with debounceCounter := 51 }) =
        some (.initLaser, 51) := by decide

theorem test_sInitLaser :
    (stateOf (exec .sInitLaser
        (two .initLaser (chan .awaitingByte1) (chan .awaitingByte1)))).map
        (fun t => (t.schedState, t.txHistory)) =
      some (.waitInitDone, [(0, [0x24, 0x0D]), (1, [0x24, 0x0D])]) := by decide

/-- By default the check passes; a check that answers false, once or for ever, holds. -/
theorem test_sWaitInitDone :
    schedOf (exec .sWaitInitDone (one .waitInitDone (chan .awaitingByte1))) =
        some (.checkNewData, 0) ∧
      schedOf (exec .sWaitInitDone
        { one .waitInitDone (chan .awaitingByte1) with initDoneAnswers := [false] }) =
        some (.waitInitDone, 0) ∧
      schedOf (exec .sWaitInitDone
        { one .waitInitDone (chan .awaitingByte1) with
          params := { par with initDoneRest := false } }) = some (.waitInitDone, 0) := by decide

/-- Channel 0 gets `05 41 80`, channel 1 `-- 3B --`. -/
theorem test_sCheckNewData :
    (stateOf (exec .sCheckNewData
        { two .checkNewData (ChannelState.reset ⟨7⟩) (ChannelState.reset ⟨7⟩) with
          rx := [[some 0x05, some 0x41, some 0x80], [none, some 0x3B, none]] })).map
        (fun t => (t.schedState, t.channels)) =
      some (.checkNewPacket,
        [{ ChannelState.reset ⟨7⟩ with
            rawFrame0 := 5, rawFrame1 := 1, raw18 := 69, newPacketReady := true },
          { ChannelState.reset ⟨7⟩ with rxState := .awaitingByte2, rawFrame0 := 59 }]) := by decide

/-- The order of the polls: burst iteration outside, channels inside. -/
theorem test_sCheckNewData_order :
    (stateOf (exec .sCheckNewData
        { two .checkNewData (ChannelState.reset ⟨7⟩) (ChannelState.reset ⟨7⟩) with
          calls := [], rx := [[some 0x05, some 0x41, some 0x80], [none, some 0x3B, none]] })).map
        State.calls =
      some [.byteAvailable 0 true, .readByte 0 0x05, .byteAvailable 1 false,
        .byteAvailable 0 true, .readByte 0 0x41, .byteAvailable 1 true, .readByte 1 0x3B,
        .byteAvailable 0 true, .readByte 0 0x80, .byteAvailable 1 false] := by decide

theorem test_sCheckNewPacket :
    chansOf (exec .sCheckNewPacket
        (two .checkNewPacket { rawChan 69 with newPacketReady := true } (rawChan 69))) =
      some [{ rawChan 69 with
          errorFlag := false, newDistanceAvailable := true, distanceMm := 0xBEE48048
          pendingFilter := true, newPacketReady := false }, rawChan 69] := by decide

/-- Channel 0 fresh but for `dist = conv(69)` and `pf`; channel 1 holds and is cleared. -/
theorem test_sFilterPacket :
    chansOf (exec .sFilterPacket
        (two .filterPacket
          { filtChan 0 0xBEE48048 with pendingFilter := true }
          { filtChan 0 0x47C34FF3 with pendingFilter := true })) =
      some [{ filtChan 0xBEE48048 0xBEE48048 with filteredValue := 0xBB69FC31 },
        filtChan 0 0x47C34FF3] := by decide

/-- One state per PROCESS, or the three data states under `fused`. -/
theorem test_process :
    schedOf (exec .process (one .checkNewData (chan .awaitingByte1))) =
        some (.checkNewPacket, 0) ∧
      schedOf (exec .process
        { one .checkNewData (chan .awaitingByte1) with params := { par with passMode := .fused } }) =
        some (.checkNewData, 0) := by decide

/-! ### TICK, INIT, the getters: vector 2.6 -/

theorem test_tick :
    schedOf (exec .tick { one .filterPacket (chan .awaitingByte1) with debounceCounter := 50 }) =
        some (.filterPacket, 51) ∧
      schedOf (exec .tick
        { one .reset (chan .awaitingByte1) with debounceCounter := 4294967295 }) =
        some (.reset, 4294967295) := by decide

theorem test_init :
    (stateOf (exec .init
        { one .filterPacket
            { chan .awaitingByte3 with errorFlag := true, pendingFilter := true } with
          debounceCounter := 9 })).map (fun t => (t.schedState, t.debounceCounter, t.channels)) =
      some (.reset, 0, [ChannelState.reset ⟨7⟩]) := by decide

/-- After INIT: 99999.8984375. -/
theorem test_getDist :
    (stateOf (exec (.getDist 0) (State.resetWith 1 par))).map State.getResult =
      some (some (.real 0x47C34FF3)) := by decide

theorem test_getErr :
    (stateOf (exec (.getErr 0) (State.resetWith 1 par))).map State.getResult =
        some (some (.bool false)) ∧
      (stateOf (exec (.getErr 0) (one .reset (rawChan 0)))).map State.getResult =
        some (some (.bool true)) := by decide

/-- Vector T8: an index at N_CH changes no register, and a getter's value is free. -/
theorem test_bad_index :
    chansOf (exec (.feed 2 0x05) (State.resetWith 2 par)) =
        some (State.resetWith 2 par).channels ∧
      chansOf (exec (.convert 2) (State.resetWith 2 par)) =
        some (State.resetWith 2 par).channels ∧
      chansOf (exec (.filter 2) (State.resetWith 2 par)) =
        some (State.resetWith 2 par).channels ∧
      chansOf (exec (.getDist 2) (State.resetWith 2 par)) =
        some (State.resetWith 2 par).channels := by decide

/-! ### The step -/

/-- A table word runs as the first instruction after reset: a third byte in AwaitingByte3, the sentinel
arm, the scheduler step CheckNewData, the operation INIT. -/
theorem test_step_runs_a_table_word :
    (stateOf (step (State.reset.withFetchWord 16 0x28F))).map
        (fun t => (t.queue, t.channels.map ChannelState.raw18)) = some ([], [0xF000, 0]) ∧
      (stateOf (step (State.reset.withFetchWord 16 0xFFBB))).map
        (fun t => t.channels.map ChannelState.errorFlag) = some [true, false] ∧
      (stateOf (step (State.reset.withFetchWord 3 4))).map State.schedState =
        some .checkNewPacket ∧
      (stateOf (step (State.reset.withFetchWord 8 1))).map State.schedState = some .reset := by
  decide

/-- A reserved operation code is used up and does nothing (R225). -/
theorem test_step_reserved_code :
    stateOf (step { State.resetWith 1 par with queue := [⟨.OP, 0x0, 0, 0⟩] }) =
      some (State.resetWith 1 par) := by decide

/-! ### Witnesses: a state and operands that meet the hypotheses of each obligation that has some -/

theorem witness_DecodeOfEncodeIsTheInstruction :
    (Instr.rx3Acc 5 3 15).wellFormed = true ∧ (Instr.convertOk 0 65535).wellFormed = true := by
  decide

theorem witness_EncodeOfDecodeKeepsTheKey :
    decode ⟨.W, 0x2BF, 3, 7⟩ = .ok (.rx3Acc 3 3 15) ∧ decode ⟨.OP, 0xA, 1, 0⟩ = .ok (.filter 1) :=
  ⟨rfl, rfl⟩

/-- The last key with a row and the first without one, both within the width. -/
theorem witness_DecoderFollowsTheOpcodeTable :
    (0x2FF : BitVec 16).toNat < 2 ^ Format.W.width ∧
      instrOf ⟨.W, 0x2FF, 0, 0⟩ = some (.rx3Rej11 0 63) ∧
      (0x300 : BitVec 16).toNat < 2 ^ Format.W.width ∧
      errorOf ⟨.W, 0x300, 0, 0⟩ = some (.noRow .W 0x300) := by decide

/-- Each tag at both ends of its range. -/
theorem witness_TransitionTableSelectsByStateAndTag :
    (0x00 : Byte) &&& 0xC0 = 0x00 ∧ (0x3F : Byte) &&& 0xC0 = 0x00 ∧
      (0x40 : Byte) &&& 0xC0 = 0x40 ∧ (0x7F : Byte) &&& 0xC0 = 0x40 ∧
      (0x80 : Byte) &&& 0xC0 = 0x80 ∧ (0xBF : Byte) &&& 0xC0 = 0x80 ∧
      (0xC0 : Byte) &&& 0xC0 = 0xC0 ∧ (0xFF : Byte) &&& 0xC0 = 0xC0 := by decide

/-- For FirstByteIsAccepted, FeedFollowsTheSourceTable, FeedRunsTheSelectedTransition,
FilterTakesTheArmOfItsGate and GettersReturnTheRegisters. -/
theorem witness_FirstByteIsAccepted :
    (one .reset (chan .awaitingByte1)).channels[0]? = some (chan .awaitingByte1) ∧
      (chan .awaitingByte1).rxState = .awaitingByte1 := ⟨rfl, rfl⟩

/-- With the count below and at saturation. -/
theorem witness_FramingErrorsAreCounted :
    ∃ (s s' : State) (c c' : ChannelState) (x : BitVec 6) (i : Instr),
      s.channels[0]? = some c ∧ c.rxState = .awaitingByte1 ∧ s'.channels[0]? = some c' ∧
        c'.rxState = .awaitingByte1 ∧
        (i = .rx1Rej01 0 x ∨ i = .rx1Rej10 0 x ∨ i = .rx1Rej11 0 x) ∧
        c.framingErrorCount < 2 ^ s.params.ctrW - 1 ∧
        ¬ c'.framingErrorCount < 2 ^ s'.params.ctrW - 1 :=
  ⟨one .reset (chan .awaitingByte1),
    one .reset { chan .awaitingByte1 with framingErrorCount := 4294967295 }, _, _, 1,
    .rx1Rej01 0 1, rfl, rfl, rfl, rfl, .inl rfl, by decide, by decide⟩

theorem witness_SecondByteIsAccepted :
    (one .reset (chan .awaitingByte2)).channels[0]? = some (chan .awaitingByte2) ∧
      (chan .awaitingByte2).rxState = .awaitingByte2 := ⟨rfl, rfl⟩

/-- Both positions. -/
theorem witness_DesyncDropsTheSample :
    (∃ (s : State) (c : ChannelState) (x : BitVec 6) (i : Instr), s.channels[0]? = some c ∧
      c.rxState = .awaitingByte2 ∧
        (i = .rx2Rej00 0 x ∨ i = .rx2Rej10 0 x ∨ i = .rx2Rej11 0 x)) ∧
    (∃ (s : State) (c : ChannelState) (x : BitVec 6) (i : Instr), s.channels[0]? = some c ∧
      c.rxState = .awaitingByte3 ∧
        (i = .rx3Rej00 0 x ∨ i = .rx3Rej01 0 x ∨ i = .rx3Rej11 0 x)) :=
  ⟨⟨one .reset (chan .awaitingByte2), _, 5, .rx2Rej00 0 5, rfl, rfl, .inl rfl⟩,
    ⟨one .reset (chan .awaitingByte3), _, 5, .rx3Rej11 0 5, rfl, rfl, .inr (.inr rfl)⟩⟩

theorem witness_ThirdByteCompletesTheSample :
    (one .reset (chan .awaitingByte3)).channels[0]? = some (chan .awaitingByte3) ∧
      (chan .awaitingByte3).rxState = .awaitingByte3 := ⟨rfl, rfl⟩

/-- One state for every clause: AwaitingByte1 is neither of the other positions, and so on. -/
theorem witness_UnselectedRowsChangeNothing :
    (chan .awaitingByte2).rxState ≠ .awaitingByte1 ∧ (chan .awaitingByte1).rxState ≠ .awaitingByte2 ∧
      (chan .awaitingByte1).rxState ≠ .awaitingByte3 ∧
      (one .reset (chan .awaitingByte1)).schedState ≠ .initLaser ∧
      (rawChan 65466).rawOperand par ≠ 65467 ∧ (rawChan 65466).rawOperand par ≠ 65468 ∧
      Num.geGate (filtChan 0 0x42480000).distanceMm = true ∧
      Num.geGate (filtChan 0 0x4247FF7C).distanceMm = false := by decide

theorem witness_EncodedSampleAssembles :
    (one .reset (chan .awaitingByte1)).channels[0]? = some (chan .awaitingByte1) ∧
      (chan .awaitingByte1).rxState = .awaitingByte1 ∧
      (one .reset (chan .awaitingByte1)).params.rawLatch = .atCompletion := ⟨rfl, rfl, rfl⟩

theorem witness_ThreeBytesPassThroughAwaitingByte1 :
    (∃ (s t : State) (c : ChannelState), s.channels[0]? = some c ∧ ¬ Accepts c.rxState 0x05 ∧
      exec (.feed 0 0x05) s = .next t) ∧
    (∃ s t₁ t₂ t₃ : State, 0 < s.nCh ∧ exec (.feed 0 0x05) s = .next t₁ ∧
      exec (.feed 0 0x41) t₁ = .next t₂ ∧ exec (.feed 0 0x80) t₂ = .next t₃) :=
  ⟨⟨one .reset (chan .awaitingByte3), _, _, rfl,
      show ¬ (0x05 : Byte) &&& 0xC0 = 0x80 by decide, rfl⟩,
    ⟨one .reset (chan .awaitingByte1), _, _, _, by decide, rfl, rfl, rfl⟩⟩

theorem witness_ThreeBytesCompleteAtMostOnce :
    ∃ s t₁ t₂ : State, exec (.feed 0 0x80) s = .next t₁ ∧ exec (.feed 0 0x05) t₁ = .next t₂ ∧
      CompletesAt s 0 0x80 :=
  ⟨one .reset (chan .awaitingByte3), _, _, rfl, rfl, _, rfl, rfl,
    show (0x80 : Byte) &&& 0xC0 = 0x80 by decide⟩

/-- The count two below saturation. -/
theorem witness_LostBytesCostWhatTheTableSays :
    ∃ (s : State) (c : ChannelState), s.channels[0]? = some c ∧ c.rxState = .awaitingByte1 ∧
      c.framingErrorCount + 2 = 2 ^ s.params.ctrW - 1 ∧ (0x3F : Byte) &&& 0xC0 = 0x00 ∧
      (0x40 : Byte) &&& 0xC0 = 0x40 ∧ (0xBF : Byte) &&& 0xC0 = 0x80 :=
  ⟨one .reset { chan .awaitingByte1 with framingErrorCount := 4294967293 }, _, rfl, rfl,
    by decide, by decide, by decide, by decide⟩

/-- The first index past the end. -/
theorem witness_BadIndexChangesNothing : (State.resetWith 2 par).nCh ≤ 2 := by decide

theorem witness_SentinelIsFlaggedAndCounted :
    (one .reset (rawChan 65467)).channels[0]? = some (rawChan 65467) ∧
      (rawChan 65467).rawOperand (one .reset (rawChan 65467)).params = 65467 := ⟨rfl, rfl⟩

/-- The two neighbours of the sentinel. -/
theorem witness_OtherValuesAreConverted :
    (one .reset (rawChan 65466)).channels[0]? = some (rawChan 65466) ∧
      (rawChan 65466).rawOperand par = 65466 ∧ (65466 : BitVec 16) ≠ 65467 ∧
      (rawChan 65468).rawOperand par = 65468 ∧ (65468 : BitVec 16) ≠ 65467 :=
  ⟨rfl, rfl, by decide, rfl, by decide⟩

/-- Under either RAW_LATCH. -/
theorem witness_ConvertTakesTheArmOfItsValue :
    ∃ (s s' : State) (c c' : ChannelState) (r r' : BitVec 16),
      s.channels[0]? = some c ∧ s.params.rawLatch = .atCompletion ∧ r = c.raw18 ∧
        s'.channels[0]? = some c' ∧ s'.params.rawLatch = .atConversion ∧
        r' = c'.rawFrame2 ++ c'.rawFrame1 ++ c'.rawFrame0 :=
  ⟨one .reset (rawChan 65467),
    { one .reset (chan .awaitingByte1) with params := { par with rawLatch := .atConversion } },
    _, _, _, _, rfl, rfl, rfl, rfl, rfl, rfl⟩

/-- Strictly increasing at the step across the sentinel's place. -/
theorem witness_ConversionIsStrictlyIncreasing : (65466 : BitVec 16) < 65468 := by decide

/-- A quotient in range, a finite pattern, and a tie: 2^24 + 1 lies halfway between 2^24, which is even
and taken, and 2^24 + 2. -/
theorem witness_RoundingIsToNearestEven :
    0 < 1 ∧ (16777217 : Int).natAbs < 1 * 2 ^ 127 ∧ Num.expo 0x4B800001 ≠ 255 ∧
      Num.rne32 16777217 1 = 0x4B800000 ∧
      Num.scaled 0x4B800001 - 16777217 * 2 ^ 149 = 16777217 * 2 ^ 149 - Num.scaled 0x4B800000 ∧
      Num.scaled 0x4B800001 ≠ Num.scaled 0x4B800000 := by decide

/-- Exactly 50.0. -/
theorem witness_OutOfRangeIsHeld :
    (one .reset (filtChan 0 0x42480000)).channels[0]? = some (filtChan 0 0x42480000) ∧
      50 ≤ Num.toRat (filtChan 0 0x42480000).distanceMm := by
  refine ⟨rfl, ?_⟩
  have h : Num.scaled (filtChan 0 0x42480000).distanceMm = 50 * 2 ^ 149 := by decide
  unfold Num.toRat
  rw [h]
  norm_num

/-- `conv(64877)`, the largest converted value below the gate. -/
theorem witness_InRangeIsFiltered :
    (one .reset (filtChan 0 0x4247FF7C)).channels[0]? = some (filtChan 0 0x4247FF7C) ∧
      Num.toRat (filtChan 0 0x4247FF7C).distanceMm < 50 := by
  refine ⟨rfl, ?_⟩
  have h : Num.scaled (filtChan 0 0x4247FF7C).distanceMm = 13107068 * 2 ^ 131 := by decide
  unfold Num.toRat
  rw [h]
  norm_num

/-- Zero, a value of `conv`, the largest finite number. -/
theorem witness_RecurrenceFixesAConstant :
    (Num.expo 0 ≠ 255 ∧ (0 : F32) ≠ 0x80000000) ∧
      (Num.expo 0xBF000000 ≠ 255 ∧ (0xBF000000 : F32) ≠ 0x80000000) ∧
      (Num.expo 0x7F7FFFFF ≠ 255 ∧ (0x7F7FFFFF : F32) ≠ 0x80000000) := by decide

/-- For ResetStepZeroesTheCounter, WaitLaserResetNeedsMoreThanFifty, InitLaserSendsTheCommand,
WaitInitDoneAsksTheCheck (both clauses), CheckNewDataDrainsThreePerChannel,
CheckNewPacketConvertsReadyChannels and FilterPacketFiltersPendingChannels. -/
theorem witness_SchedulerSteps :
    (one .reset (chan .awaitingByte1)).schedState = .reset ∧
      (one .waitLaserReset (chan .awaitingByte1)).schedState = .waitLaserReset ∧
      (one .initLaser (chan .awaitingByte1)).schedState = .initLaser ∧
      (one .waitInitDone (chan .awaitingByte1)).schedState = .waitInitDone ∧
      (one .waitInitDone (chan .awaitingByte1)).initDoneAnswers = [] ∧
      (one .waitInitDone (chan .awaitingByte1)).params.initDoneRest = true ∧
      (one .checkNewData (chan .awaitingByte1)).schedState = .checkNewData ∧
      (one .checkNewPacket (chan .awaitingByte1)).schedState = .checkNewPacket ∧
      (one .filterPacket (chan .awaitingByte1)).schedState = .filterPacket := by decide

/-- For ProcessRunsTheSelectedStep and SchedulerSuccessors (its first clause). -/
theorem witness_ProcessRunsTheSelectedStep :
    (one .checkNewData (chan .awaitingByte1)).params.passMode = .oneState := by decide

/-- Both clauses. -/
theorem witness_FusedPassRunsTheThreeDataSteps :
    ∃ s s' : State, s.params.passMode = .fused ∧ s.schedState = .checkNewData ∧
      s'.params.passMode = .fused ∧ s'.schedState ≠ .checkNewData :=
  ⟨{ one .checkNewData (chan .awaitingByte1) with params := { par with passMode := .fused } },
    { one .filterPacket (chan .awaitingByte1) with params := { par with passMode := .fused } },
    rfl, rfl, rfl, by decide⟩

theorem witness_SchedulerSuccessors :
    ∃ s t : State, Instr.tick ≠ .init ∧ exec .tick s = .next t ∧ t.schedState = .reset :=
  ⟨one .reset (chan .awaitingByte1), _, by decide, rfl, rfl⟩

/-- The narrowest counter that can exceed 50. -/
theorem witness_DebounceTakesFiftyOneTicks :
    ∃ s : State, s.schedState = .reset ∧ s.params.debW = 6 :=
  ⟨{ one .reset (chan .awaitingByte1) with params := { par with debW := 6 } }, rfl, rfl⟩

/-- All four clauses; the count at its boundary, a check that is never true. -/
theorem witness_StarvationIsNotTimedOut :
    (∃ s t : State, Instr.process ≠ .init ∧ Instr.process ≠ .tick ∧ exec .process s = .next t ∧
      s.schedState = .waitLaserReset ∧ s.debounceCounter = 50) ∧
    (∃ s t : State, Instr.process ≠ .init ∧ exec .process s = .next t ∧
      s.schedState = .waitInitDone ∧ s.params.initDoneRest = false ∧
      (∀ a ∈ s.initDoneAnswers, a = false) ∧ s.initDoneAnswers ≠ []) ∧
    (∃ s t : State, Instr.tick ≠ .init ∧ Instr.tick ≠ .process ∧ (∀ st, Instr.tick ≠ schedRow st) ∧
      exec .tick s = .next t) ∧
    (∃ (s : State) (c : ChannelState), s.schedState = .waitInitDone ∧ s.channels[0]? = some c) :=
  ⟨⟨{ one .waitLaserReset (chan .awaitingByte1) with debounceCounter := 50 }, _, by decide,
      by decide, rfl, rfl, rfl⟩,
    ⟨{ one .waitInitDone (chan .awaitingByte1) with
        initDoneAnswers := [false], params := { par with initDoneRest := false } }, _, by decide,
      rfl, rfl, rfl, by decide, by decide⟩,
    ⟨one .waitLaserReset (chan .awaitingByte1), _, by decide, by decide,
      fun st => by cases st <;> decide, rfl⟩,
    one .waitInitDone (chan .awaitingByte1), _, rfl, rfl⟩

/-- In the two states in which a flag can be set. -/
theorem witness_StepKeepsThePipelineFlags :
    (∃ s t : State, s.PipelineInv ∧ (∀ c ∈ s.queue, schedulerOnly c = true) ∧ step s = .next t ∧
      s.schedState = .checkNewPacket) ∧
    (∃ s t : State, s.PipelineInv ∧ (∀ c ∈ s.queue, schedulerOnly c = true) ∧ step s = .next t ∧
      s.schedState = .filterPacket) :=
  ⟨⟨{ one .checkNewPacket { rawChan 69 with newPacketReady := true } with
      queue := [⟨.OP, 3, 0, 0⟩] }, _,
      show ∀ c ∈ [({ rawChan 69 with newPacketReady := true } : ChannelState)],
        c.pendingFilter = false by decide, by decide, rfl, rfl⟩,
    ⟨{ one .filterPacket { rawChan 69 with pendingFilter := true } with
      queue := [⟨.OP, 3, 0, 0⟩] }, _,
      show ∀ c ∈ [({ rawChan 69 with pendingFilter := true } : ChannelState)],
        c.newPacketReady = false by decide, by decide, rfl, rfl⟩⟩

/-- The line of bytes of a sample below the gate and of one above. -/
theorem witness_SampleIsFilteredInThreePasses :
    ∃ (s s' : State) (c : ChannelState) (rest : List (Option Byte)),
      s.params.passMode = .oneState ∧ s.schedState = .checkNewData ∧ s.channels[0]? = some c ∧
        c.rxState = .awaitingByte1 ∧ (64877 : BitVec 16) ≠ 65467 ∧
        s.rxLine 0 = some (encSample 64877).1 :: some (encSample 64877).2.1 ::
          some (encSample 64877).2.2 :: rest ∧
        s'.params.passMode = .oneState ∧ s'.schedState = .checkNewData ∧
        s'.channels[0]? = some c ∧ (64878 : BitVec 16) ≠ 65467 ∧
        s'.rxLine 0 = some (encSample 64878).1 :: some (encSample 64878).2.1 ::
          some (encSample 64878).2.2 :: rest :=
  ⟨{ one .checkNewData (chan .awaitingByte1) with
      rx := [[some (encSample 64877).1, some (encSample 64877).2.1, some (encSample 64877).2.2]] },
    { one .checkNewData (chan .awaitingByte1) with
      rx := [[some (encSample 64878).1, some (encSample 64878).2.1, some (encSample 64878).2.2]] },
    _, [], rfl, rfl, rfl, rfl, by decide, rfl, rfl, rfl, rfl, by decide, rfl⟩

theorem witness_FilterRunsOnTheStaleDistance :
    ∃ (s : State) (c : ChannelState), s.params.passMode = .oneState ∧
      s.schedState = .checkNewPacket ∧ s.channels[0]? = some c ∧ c.newPacketReady = true ∧
      c.rawOperand s.params = 65467 ∧ Num.geGate c.distanceMm = false :=
  ⟨one .checkNewPacket { rawChan 65467 with newPacketReady := true }, _, rfl, rfl, rfl, rfl, rfl,
    by decide⟩

/-- In Reset and in WaitLaserReset for an operation that does not touch the counter, and a PROCESS
elsewhere. -/
theorem witness_TickCommutesWithOtherOperations :
    (∃ (i : Instr) (s : State), i ≠ .init ∧ s.schedState = .reset ∧ i ≠ .process ∧ i ≠ .sReset) ∧
    (∃ (i : Instr) (s : State), i ≠ .init ∧ s.schedState = .waitLaserReset ∧ i ≠ .process ∧
      i ≠ .sWaitLaserReset) ∧
    (∃ s : State, Instr.process ≠ .init ∧ s.schedState ≠ .reset ∧
      s.schedState ≠ .waitLaserReset) :=
  ⟨⟨.feed 0 5, one .reset (chan .awaitingByte1), by decide, rfl, by decide, by decide⟩,
    ⟨.sReset, one .waitLaserReset (chan .awaitingByte1), by decide, rfl, by decide, by decide⟩,
    one .initLaser (chan .awaitingByte1), by decide, by decide, by decide⟩

/-- The tick context, and the main context with and without a write of the counter. -/
theorem witness_CounterIsTheOnlySharedRegister :
    (∃ s t : State, contextOf .tick = .tick ∧ exec .tick s = .next t) ∧
    (∃ s t : State, contextOf .sReset = .main ∧ exec .sReset s = .next t ∧
      s.debounceCounter = 7 ∧ t.debounceCounter = 0) ∧
    (∃ s t : State, contextOf .process = .main ∧ exec .process s = .next t ∧
      s.debounceCounter = 7 ∧ t.debounceCounter = 7) :=
  ⟨⟨one .reset (chan .awaitingByte1), _, rfl, rfl⟩,
    ⟨{ one .reset (chan .awaitingByte1) with debounceCounter := 7 }, _, rfl, rfl, rfl, rfl⟩,
    ⟨{ one .filterPacket (chan .awaitingByte1) with debounceCounter := 7 }, _, rfl, rfl, rfl, rfl⟩⟩

theorem witness_StepRunsTheDecodedInstruction :
    ∃ (s : State) (c : Cmd) (rest : List Cmd) (i : Instr),
      s.queue = c :: rest ∧ decode c = .ok i :=
  ⟨{ one .reset (chan .awaitingByte1) with queue := [⟨.OP, 8, 0, 5⟩] }, _, _, .feed 0 5, rfl, rfl⟩

/-- All four clauses. -/
theorem witness_StepWithoutAnInstruction :
    (∃ (s : State) (c : Cmd) (rest : List Cmd),
      s.queue = c :: rest ∧ decode c = .error (.reservedOp 6)) ∧
    (State.resetWith 1 par).queue = [] ∧
    (∃ (s : State) (c : Cmd) (rest : List Cmd),
      s.queue = c :: rest ∧ firstRow c.format c.key = none ∧ c.format ≠ .OP) ∧
    (∃ (s : State) (c : Cmd) (rest : List Cmd),
      s.queue = c :: rest ∧ 2 ^ c.format.width = c.key.toNat ∧ c.format = .OP) :=
  ⟨⟨{ State.resetWith 1 par with queue := [⟨.OP, 6, 0, 0⟩] }, _, _, rfl, rfl⟩, rfl,
    ⟨{ State.resetWith 1 par with queue := [⟨.W, 0x300, 0, 0⟩] }, _, _, rfl, by decide, by decide⟩,
    ⟨{ State.resetWith 1 par with queue := [⟨.OP, 0x10, 0, 0⟩] }, _, _, rfl, by decide, rfl⟩⟩

/-- The state after reset, with an operation issued. -/
theorem witness_StepKeepsTheInvariant :
    ∃ s t : State, s.Inv ∧ step s = .next t ∧ s.queue ≠ [] := by
  refine ⟨{ State.resetWith 1 par with queue := [⟨.OP, 9, 0, 0⟩] }, _, ⟨?_, ?_, ?_, ?_⟩, rfl, ?_⟩
  · decide
  · decide
  · decide
  · intro c hc
    have h : c = ChannelState.reset ⟨7⟩ := by simpa [State.resetWith, par] using hc
    subst h
    refine ⟨.inl ⟨rfl, rfl⟩, .inl ⟨rfl, rfl⟩, ?_, ?_, ?_⟩
    · decide
    · decide
    · decide
  · decide

/-- The smallest machine. -/
theorem witness_InvariantsAtReset : 1 ≤ (1 : Nat) ∧ 1 ≤ ({ par with ctrW := 1 } : Params).ctrW := by
  decide

/-- For the three statements on what an operation other than INIT can write. -/
theorem witness_CountersNeverDecreaseAndFaultFlagsStay :
    ∃ (i : Instr) (s t : State) (c : ChannelState), i ≠ .init ∧ exec i s = .next t ∧
      s.channels[0]? = some c ∧ t ≠ s :=
  ⟨.feed 0 0xC0, one .reset (chan .awaitingByte1), _, _, by decide, rfl, rfl, by decide⟩

theorem witness_OnlyConversionWritesTheDistance :
    ∃ (s t : State) (c : ChannelState), Instr.convert 0 ≠ .init ∧
      exec (.convert 0) s = .next t ∧ s.channels[0]? = some c ∧ t ≠ s :=
  ⟨one .reset (rawChan 69), _, _, by decide, rfl, rfl, by decide⟩

theorem witness_OnlyTheFilterWritesItsRegisters :
    ∃ (s t : State) (c : ChannelState), Instr.filter 0 ≠ .init ∧
      exec (.filter 0) s = .next t ∧ s.channels[0]? = some c ∧ t ≠ s :=
  ⟨one .reset (filtChan 0 0xBF000000), _, _, by decide, rfl, rfl, by decide⟩

/-- Two states that agree on lane 0 and differ on lane 1. -/
theorem witness_ChannelsDoNotInteract :
    ∃ s s' t t' : State, SameLane 0 s s' ∧ s ≠ s' ∧ exec .process s = .next t ∧
      exec .process s' = .next t' :=
  ⟨two .checkNewPacket (rawChan 69) (rawChan 70), two .checkNewPacket (rawChan 69) (rawChan 71),
    _, _, ⟨rfl, rfl, rfl, rfl, rfl, rfl, rfl⟩, by decide, rfl, rfl⟩

end Sys2Proof.Tests
end

/-! PROOFS. The rounding of NUM_EXACT32 (R12, D5). A quotient of `n / d` units of 2^-149 is rounded
to `significand n d` multiples of `2 ^ shift n d` units. That multiple is what the pattern of `rne32`
denotes, and it is the nearest one; every finite pattern is a multiple too or lies below the
quotient's binade. -/

namespace Sys2Proof.Machine.Num

/-! ### The nearest integer -/

/-- The rounding error is at most one half, and one half only at an even result. -/
theorem rneDiv_error (n : Nat) {d : Nat} (hd : 0 < d) :
    2 * |(rneDiv n d : ℤ) * d - n| ≤ d ∧
      (2 * |(rneDiv n d : ℤ) * d - n| = d → rneDiv n d % 2 = 0) := by
  have hn : (n : ℤ) = n / d * d + n % d := by rw [mul_comm]; exact (Int.mul_ediv_add_emod n d).symm
  have hr : n % d < d := Nat.mod_lt n hd
  have down : ((n / d : ℕ) : ℤ) * d - n = -(n % d : ℕ) := by push_cast; linarith
  have up : ((n / d + 1 : ℕ) : ℤ) * d - n = ((d - n % d : ℕ) : ℤ) := by
    push_cast [hr.le]; linarith
  unfold rneDiv
  split_ifs with hlow hhigh heven
  · rw [down, abs_neg, Nat.abs_cast]; omega
  · rw [up, Nat.abs_cast]; omega
  · rw [down, abs_neg, Nat.abs_cast]; omega
  · rw [up, Nat.abs_cast]; omega

/-- No integer is nearer, and where another one is as near the result is even. -/
theorem rneDiv_nearest (n : Nat) {d : Nat} (hd : 0 < d) (j : ℤ) :
    |(rneDiv n d : ℤ) * d - n| ≤ |j * d - n| ∧
      (|j * d - n| = |(rneDiv n d : ℤ) * d - n| → j ≠ rneDiv n d → rneDiv n d % 2 = 0) := by
  obtain ⟨herr, heven⟩ := rneDiv_error n hd
  by_cases hj : j = rneDiv n d
  · simp [hj]
  have hgap : (d : ℤ) ≤ |j * d - n| + |(rneDiv n d : ℤ) * d - n| :=
    calc (d : ℤ) ≤ |j - rneDiv n d| * d :=
          le_mul_of_one_le_left (by omega) (Int.one_le_abs (sub_ne_zero.mpr hj))
      _ = |(j * d - n) - ((rneDiv n d : ℤ) * d - n)| := by
          rw [← Nat.abs_cast d, ← abs_mul, Nat.abs_cast]; ring_nf
      _ ≤ _ := abs_sub _ _
  exact ⟨by omega, fun heq _ => heven (by omega)⟩

theorem rneDiv_le {n d k : Nat} (hd : 0 < d) (h : n ≤ k * d) : rneDiv n d ≤ k := by
  obtain ⟨herr, -⟩ := rneDiv_error n hd
  by_contra! hk
  have : (k + 1) * d ≤ rneDiv n d * d := Nat.mul_le_mul_right d hk
  have := le_abs_self ((rneDiv n d : ℤ) * d - n)
  zify at *
  linarith

theorem le_rneDiv {n d k : Nat} (hd : 0 < d) (h : k * d ≤ n) : k ≤ rneDiv n d := by
  obtain ⟨herr, -⟩ := rneDiv_error n hd
  by_contra! hk
  have : (rneDiv n d + 1) * d ≤ k * d := Nat.mul_le_mul_right d hk
  have := neg_le_abs ((rneDiv n d : ℤ) * d - n)
  zify at *
  linarith

/-! ### The binade of a quotient and its significand -/

/-- The exponent of the multiples that `rneMag` chooses among. -/
def shift (n d : Nat) : Nat := Nat.log2 (n / d) - 23

/-- The multiple that `rneMag` chooses. -/
def significand (n d : Nat) : Nat := rneDiv n (d * 2 ^ shift n d)

/-- The magnitude that `rneMag` chooses, in units of 2^-149. -/
def nearestMag (n d : Nat) : Nat := significand n d * 2 ^ shift n d

theorem nearestMag_mul (n d : Nat) :
    (nearestMag n d : ℤ) * d = significand n d * (d * 2 ^ shift n d : ℕ) := by
  unfold nearestMag; push_cast; ring

theorem rneMag_eq_min (n d : Nat) :
    rneMag n d = min (2 ^ 23 * shift n d + significand n d) 0x7F800000 := rfl

theorem rneMag_le (n d : Nat) : rneMag n d ≤ 0x7F800000 := min_le_right _ _

theorem lt_two_pow_shift {n d : Nat} (hd : 0 < d) : n < 2 ^ 24 * (d * 2 ^ shift n d) := by
  have hq : n / d < 2 ^ (Nat.log2 (n / d) + 1) := Nat.lt_log2_self
  have hle : 2 ^ (Nat.log2 (n / d) + 1) ≤ 2 ^ (24 + shift n d) :=
    Nat.pow_le_pow_right (by omega) (by unfold shift; omega)
  have := (Nat.div_lt_iff_lt_mul hd).mp (hq.trans_le hle)
  rwa [pow_add, mul_assoc, mul_comm (2 ^ shift n d)] at this

theorem two_pow_shift_le {n d : Nat} (hsh : 0 < shift n d) : 2 ^ 23 * (d * 2 ^ shift n d) ≤ n := by
  have hne : n / d ≠ 0 := by rintro h; simp [shift, h] at hsh
  have hq : 2 ^ (23 + shift n d) ≤ n / d := by
    have : 23 + shift n d = Nat.log2 (n / d) := by unfold shift at *; omega
    rw [this]; exact Nat.log2_self_le hne
  calc 2 ^ 23 * (d * 2 ^ shift n d) = 2 ^ (23 + shift n d) * d := by ring
    _ ≤ n / d * d := Nat.mul_le_mul_right d hq
    _ ≤ n := Nat.div_mul_le_self n d

theorem shift_le {n d k : Nat} (h : n < d * 2 ^ (24 + k)) : shift n d ≤ k := by
  by_contra! hk
  have hle := two_pow_shift_le (by omega : 0 < shift n d)
  have hpow : d * 2 ^ (24 + k) ≤ d * 2 ^ (23 + shift n d) :=
    Nat.mul_le_mul_left d (Nat.pow_le_pow_right (by omega) (by omega))
  rw [pow_add 2 23] at hpow
  linarith

theorem significand_le {n d : Nat} (hd : 0 < d) : significand n d ≤ 2 ^ 24 :=
  rneDiv_le (by positivity) (lt_two_pow_shift hd).le

theorem le_significand {n d : Nat} (hd : 0 < d) (hsh : 0 < shift n d) : 2 ^ 23 ≤ significand n d :=
  le_rneDiv (by positivity) (two_pow_shift_le hsh)

/-- A quotient below `2 ^ k` is `2 ^ (149 + k)` units, of which 24 bits are kept. -/
theorem shift_le_of_lt {a den k : Nat} (h : a < den * 2 ^ k) : shift (2 ^ 149 * a) den ≤ 125 + k :=
  shift_le <|
    calc 2 ^ 149 * a < 2 ^ 149 * (den * 2 ^ k) := Nat.mul_lt_mul_of_pos_left h (by positivity)
      _ = den * 2 ^ (24 + (125 + k)) := by ring

/-- Below 2^127 the largest finite pattern is not passed. -/
theorem rneMag_eq {a den : Nat} (hd : 0 < den) (h : a < den * 2 ^ 127) :
    rneMag (2 ^ 149 * a) den = 2 ^ 23 * shift (2 ^ 149 * a) den + significand (2 ^ 149 * a) den ∧
      rneMag (2 ^ 149 * a) den ≤ 2 ^ 23 * 254 := by
  have := shift_le_of_lt h
  have := significand_le (n := 2 ^ 149 * a) hd
  rw [rneMag_eq_min]; omega

/-! ### The fields and the magnitude of a pattern -/

theorem expo_eq (x : F32) : expo x = x.toNat % 2 ^ 31 / 2 ^ 23 := by
  simp only [expo, BitVec.extractLsb'_toNat, Nat.shiftRight_eq_div_pow]; omega

theorem frac_eq (x : F32) : frac x = x.toNat % 2 ^ 31 % 2 ^ 23 := by
  simp only [frac, BitVec.extractLsb'_toNat, Nat.shiftRight_eq_div_pow]; omega

/-- Below the binade of `2 ^ (23 + sh)` units, or a multiple of `2 ^ sh` units. -/
theorem dvd_mag_or_mag_lt (x : F32) (sh : Nat) :
    2 ^ sh ∣ mag x ∨ 0 < sh ∧ mag x < 2 ^ 23 * 2 ^ sh := by
  obtain rfl | hsh := Nat.eq_zero_or_pos sh
  · exact .inl (one_dvd _)
  have hfrac : frac x < 2 ^ 23 := (x.extractLsb' 0 23).isLt
  unfold mag
  split_ifs with hexpo
  · exact .inr ⟨hsh, hfrac.trans_le (Nat.le_mul_of_pos_right _ (by positivity))⟩
  · by_cases hle : sh ≤ expo x - 1
    · exact .inl ((pow_dvd_pow 2 hle).mul_left _)
    · refine .inr ⟨hsh, ?_⟩
      calc (2 ^ 23 + frac x) * 2 ^ (expo x - 1)
          < 2 ^ 24 * 2 ^ (expo x - 1) := Nat.mul_lt_mul_of_pos_right (by omega) (by positivity)
        _ = 2 ^ 23 * 2 ^ (expo x - 1 + 1) := by ring
        _ ≤ 2 ^ 23 * 2 ^ sh :=
          Nat.mul_le_mul_left _ (Nat.pow_le_pow_right (by omega) (by omega))

/-- The pattern of `m` multiples of `2 ^ sh` units is `2 ^ 23 * sh + m`, also at the carry into the
next binade. -/
theorem mag_of_pattern {x : F32} {sh m : Nat} (hx : x.toNat % 2 ^ 31 = 2 ^ 23 * sh + m)
    (hm : m ≤ 2 ^ 24) (hsh : 0 < sh → 2 ^ 23 ≤ m) : mag x = m * 2 ^ sh := by
  have he := expo_eq x
  have hf := frac_eq x
  rw [hx] at he hf
  unfold mag
  obtain hlow | rfl | ⟨hmid, hhigh⟩ : m < 2 ^ 23 ∨ m = 2 ^ 24 ∨ 2 ^ 23 ≤ m ∧ m < 2 ^ 24 := by omega
  · obtain rfl : sh = 0 := by omega
    rw [if_pos (by omega), show frac x = m by omega, pow_zero, mul_one]
  · rw [if_neg (by omega), show frac x = 0 by omega, show expo x - 1 = sh + 1 by omega]
    ring
  · rw [if_neg (by omega), show 2 ^ 23 + frac x = m by omega, show expo x - 1 = sh by omega]

/-! ### The distance from the exact quotient -/

/-- Of the numbers a finite pattern can denote, none is nearer to `n / d` units than the chosen
multiple, and where another one is as near the multiple is even. -/
theorem nearestMag_nearest (n : Nat) {d : Nat} (hd : 0 < d) {v : ℤ}
    (hv : (2 ^ shift n d : ℤ) ∣ v ∨ 0 < shift n d ∧ v < 2 ^ 23 * 2 ^ shift n d) :
    |(nearestMag n d : ℤ) * d - n| ≤ |v * d - n| ∧
      (|v * d - n| = |(nearestMag n d : ℤ) * d - n| → v ≠ nearestMag n d →
        significand n d % 2 = 0) := by
  have hD : 0 < d * 2 ^ shift n d := by positivity
  have assoc (j : ℤ) : j * 2 ^ shift n d * d = j * (d * 2 ^ shift n d : ℕ) := by push_cast; ring
  rw [nearestMag_mul]
  obtain ⟨j, rfl⟩ | ⟨hsh, hlt⟩ := hv
  · obtain ⟨hle, heven⟩ := rneDiv_nearest n hD j
    rw [mul_comm (2 ^ shift n d) j, assoc]
    exact ⟨hle, fun heq hne => heven heq (by rintro rfl; simp [nearestMag, significand] at hne)⟩
  · have hlow : (2 ^ 23 : ℤ) * (d * 2 ^ shift n d : ℕ) ≤ n := by exact_mod_cast two_pow_shift_le hsh
    have hvd : v * d < 2 ^ 23 * (d * 2 ^ shift n d : ℕ) := by
      rw [← assoc]; exact mul_lt_mul_of_pos_right hlt (by exact_mod_cast hd)
    have hnear := (rneDiv_nearest n hD (2 ^ 23)).1
    have hfar : |(2 ^ 23 : ℤ) * (d * 2 ^ shift n d : ℕ) - n| < |v * d - n| := by
      rw [abs_of_nonpos (by linarith), abs_of_nonpos (by linarith)]; linarith
    exact ⟨hnear.trans hfar.le, fun heq => absurd heq (hnear.trans_lt hfar).ne'⟩

theorem dvd_scaled_or_abs_lt (x : F32) (sh : Nat) :
    (2 ^ sh : ℤ) ∣ scaled x ∨ 0 < sh ∧ |scaled x| < 2 ^ 23 * 2 ^ sh := by
  have habs : |scaled x| = mag x := by unfold scaled; split_ifs <;> simp
  rw [← dvd_abs, habs]
  exact_mod_cast dvd_mag_or_mag_lt x sh

/-- Up to the sign, the distance of `v` units from the quotient is that of the magnitudes. -/
theorem abs_mul_sub_eq (num v : ℤ) (den : Nat) :
    |v * den - 2 ^ 149 * num| =
      |(if num < 0 then -v else v) * den - (2 ^ 149 * num.natAbs : ℕ)| := by
  push_cast
  split_ifs with hneg
  · rw [abs_of_neg hneg, ← abs_neg]; ring_nf
  · rw [abs_of_nonneg (not_lt.mp hneg)]

theorem abs_toRat_sub {den : Nat} (hd : 0 < den) (num : ℤ) (x : F32) :
    |(toRat x : ℚ) - (num : ℚ) / (den : ℚ)| =
      ((|scaled x * den - 2 ^ 149 * num| : ℤ) : ℚ) / (2 ^ 149 * den) := by
  have hden : (0 : ℚ) < den := by exact_mod_cast hd
  have hpos : (0 : ℚ) < 2 ^ 149 * den := by positivity
  rw [toRat, div_sub_div _ _ (by positivity) hden.ne', abs_div, abs_of_pos hpos]
  push_cast
  rfl

/-! ### The pattern `rne32` returns -/

/-- The bits of `rne32` below the sign. -/
theorem rne32_mod (num : Int) (den : Nat) :
    (rne32 num den).toNat % 2 ^ 31 = rneMag (2 ^ 149 * num.natAbs) den := by
  have hm := rneMag_le (2 ^ 149 * num.natAbs) den
  simp only [rne32]
  split_ifs <;> rw [BitVec.toNat_ofNat] <;> omega

theorem rne32_msb (num : Int) (den : Nat) :
    (rne32 num den).msb = decide (num < 0 ∧ rneMag (2 ^ 149 * num.natAbs) den ≠ 0) := by
  have hm := rneMag_le (2 ^ 149 * num.natAbs) den
  simp only [rne32]
  generalize rneMag (2 ^ 149 * num.natAbs) den = m at hm ⊢
  rw [BitVec.msb_eq_decide, decide_eq_decide]
  split_ifs with hneg
  · rw [BitVec.toNat_ofNat, Nat.mod_eq_of_lt (by omega)]; omega
  · rw [BitVec.toNat_ofNat, Nat.mod_eq_of_lt (by omega)]; omega

theorem scaled_rne32 (num : Int) (den : Nat) : scaled (rne32 num den) =
    if num < 0 then -(mag (rne32 num den) : ℤ) else mag (rne32 num den) := by
  have hzero : rneMag (2 ^ 149 * num.natAbs) den = 0 → mag (rne32 num den) = 0 := fun h =>
    (mag_of_pattern (sh := 0) (m := 0) ((rne32_mod num den).trans h) (by omega) (by omega)).trans
      (zero_mul _)
  rw [scaled, rne32_msb]
  by_cases hm : rneMag (2 ^ 149 * num.natAbs) den = 0
  · simp [hzero hm]
  · simp only [hm, ne_eq, not_false_eq_true, and_true, decide_eq_true_eq]

section Finite

variable {num : Int} {den : Nat} (hd : 0 < den) (hn : num.natAbs < den * 2 ^ 127)
include hd hn

theorem expo_rne32_ne : expo (rne32 num den) ≠ 255 := by
  have := (rneMag_eq hd hn).2
  rw [expo_eq, rne32_mod]; omega

/-- The fraction's last bit is the significand's. -/
theorem frac_rne32_mod_two :
    frac (rne32 num den) % 2 = significand (2 ^ 149 * num.natAbs) den % 2 := by
  have := (rneMag_eq hd hn).1
  rw [frac_eq, rne32_mod]; omega

theorem mag_rne32 : mag (rne32 num den) = nearestMag (2 ^ 149 * num.natAbs) den :=
  mag_of_pattern ((rne32_mod num den).trans (rneMag_eq hd hn).1) (significand_le hd)
    (le_significand hd)

theorem abs_scaled_rne32_sub : |scaled (rne32 num den) * den - 2 ^ 149 * num| =
    |(nearestMag (2 ^ 149 * num.natAbs) den : ℤ) * den - (2 ^ 149 * num.natAbs : ℕ)| := by
  rw [abs_mul_sub_eq, scaled_rne32, mag_rne32 hd hn]
  split_ifs
  · rw [neg_neg]
  · rfl

/-- The rounding error is at most half of the unit in the last place. -/
theorem rne32_error : 2 * |scaled (rne32 num den) * den - 2 ^ 149 * num| ≤
    ((den * 2 ^ shift (2 ^ 149 * num.natAbs) den : ℕ) : ℤ) := by
  have hpos : 0 < den * 2 ^ shift (2 ^ 149 * num.natAbs) den := by positivity
  rw [abs_scaled_rne32_sub hd hn, nearestMag_mul]
  exact (rneDiv_error (2 ^ 149 * num.natAbs) hpos).1

theorem scaled_rne32_nearest (x : F32) :
    |scaled (rne32 num den) * den - 2 ^ 149 * num| ≤ |scaled x * den - 2 ^ 149 * num| ∧
      (|scaled x * den - 2 ^ 149 * num| = |scaled (rne32 num den) * den - 2 ^ 149 * num| →
        scaled x ≠ scaled (rne32 num den) → frac (rne32 num den) % 2 = 0) := by
  have hx := dvd_scaled_or_abs_lt x (shift (2 ^ 149 * num.natAbs) den)
  rw [abs_scaled_rne32_sub hd hn, abs_mul_sub_eq num (scaled x), scaled_rne32,
    frac_rne32_mod_two hd hn, mag_rne32 hd hn]
  split_ifs
  · obtain ⟨hle, heven⟩ := nearestMag_nearest (2 ^ 149 * num.natAbs) hd (v := -scaled x)
      (hx.imp (dvd_neg.mpr ·) fun ⟨hsh, hlt⟩ => ⟨hsh, (neg_le_abs _).trans_lt hlt⟩)
    exact ⟨hle, fun heq hne => heven heq fun h => hne (neg_eq_iff_eq_neg.mp h)⟩
  · exact nearestMag_nearest (2 ^ 149 * num.natAbs) hd
      (hx.imp id fun ⟨hsh, hlt⟩ => ⟨hsh, (le_abs_self _).trans_lt hlt⟩)

end Finite

/-- Settles O26: the chosen multiple is the nearest number a finite pattern can denote. -/
theorem roundingIsToNearestEven : Obligations.RoundingIsToNearestEven := by
  intro num den hd hn
  refine ⟨expo_rne32_ne hd hn, fun x _ => ?_⟩
  obtain ⟨hle, heven⟩ := scaled_rne32_nearest hd hn x
  have hpos : (0 : ℚ) < 2 ^ 149 * den := by positivity
  rw [abs_toRat_sub hd, abs_toRat_sub hd, div_le_div_iff_of_pos_right hpos,
    div_left_inj' hpos.ne', Int.cast_le, Int.cast_inj]
  exact ⟨hle, fun heq hne => heven heq fun h => hne (by rw [toRat, toRat, h])⟩

end Sys2Proof.Machine.Num

/-! PROOFS. The two laws of R12 for `conv`: its quotient lies below 64, so half of the unit in the
last place is at most 2^-19, and the quotients next to 50 are farther from 50 than that. -/

namespace Sys2Proof.Machine.Num

/-- Below 64 the rounding error is at most 2^-19. -/
theorem abs_toRat_rne32_sub_le {num : ℤ} {den : Nat} (hd : 0 < den) (h : num.natAbs < den * 2 ^ 6) :
    |(toRat (rne32 num den) : ℚ) - (num : ℚ) / (den : ℚ)| ≤ 1 / 2 ^ 19 := by
  have hulp : den * 2 ^ shift (2 ^ 149 * num.natAbs) den ≤ den * 2 ^ 131 :=
    Nat.mul_le_mul_left den (Nat.pow_le_pow_right (by omega) (shift_le_of_lt h))
  have herr : 2 * |scaled (rne32 num den) * den - 2 ^ 149 * num| ≤ ((den * 2 ^ 131 : ℕ) : ℤ) :=
    (rne32_error hd (by omega)).trans (by exact_mod_cast hulp)
  have hpos : (0 : ℚ) < 2 ^ 149 * den := by positivity
  have herr' : 2 * ((|scaled (rne32 num den) * den - 2 ^ 149 * num| : ℤ) : ℚ) ≤ den * 2 ^ 131 := by
    exact_mod_cast herr
  rw [abs_toRat_sub hd, div_le_div_iff₀ hpos (by positivity)]
  linarith

theorem abs_toRat_conv_sub_le (r : BitVec 16) :
    |(toRat (conv r) : ℚ) - (17 * (r.toNat : ℚ) - 10920) / 21840| ≤ 1 / 2 ^ 19 := by
  have hr := r.isLt
  have h := abs_toRat_rne32_sub_le (num := 17 * (r.toNat : ℤ) - 10920) (den := 21840)
    (by omega) (by omega)
  rw [conv_eq]
  push_cast at h
  exact h

theorem geGate_iff_toRat (x : F32) : geGate x = true ↔ 50 ≤ toRat x := by
  rw [geGate_iff_scaled, toRat, le_div_iff₀ (by positivity)]
  exact_mod_cast Iff.rfl

/-- Settles O23: the error is even at most 2^-19. -/
theorem conversionIsAccurate : Obligations.ConversionIsAccurate := fun r =>
  (abs_toRat_conv_sub_le r).trans (by norm_num)

/-- Settles O24: the quotients of 64877 and 64878 lie farther from 50 than the rounding can move
them. -/
theorem gateSplitsTheConvertedValues : Obligations.GateSplitsTheConvertedValues := by
  intro r
  rw [geGate_iff_toRat]
  obtain ⟨hlow, hhigh⟩ := abs_le.mp (abs_toRat_conv_sub_le r)
  constructor
  · intro hgate
    by_contra! hr
    have : (r.toNat : ℚ) ≤ 64877 := by exact_mod_cast Nat.le_of_lt_succ hr
    linarith
  · intro hr
    have : (64878 : ℚ) ≤ r.toNat := by exact_mod_cast hr
    linarith

end Sys2Proof.Machine.Num

/-! PROOFS. A lane as a pipeline. What an instruction other than INIT does to one channel is three
stages one after the other, each possibly idle: the receiver takes bytes, a sample is converted and
handed over, the filter runs. Each stage writes its own registers, so a rule about a register is a rule
about one stage (R37). -/

namespace Sys2Proof.Machine

/-! ### The three stages -/

/-- The channel with the registers of the receiver blanked. -/
def ChannelState.blankReceiver (c : ChannelState) : ChannelState :=
  { c with
    rxState := .awaitingByte1, rawFrame0 := 0, rawFrame1 := 0, rawFrame2 := 0, raw18 := 0
    newPacketReady := false, framingErrorCount := 0 }

/-- The channel with the registers of the filter blanked. -/
def ChannelState.blankFilter (c : ChannelState) : ChannelState :=
  { c with filteredValue := 0, previousValue := 0, pendingFilter := false }

/-- What at most `n` bytes do to a channel: nothing outside the receiver, and at most `n` framing
errors are counted, within the counter's width. -/
structure Receives (p : Params) (n : Nat) (c d : ChannelState) : Prop where
  frame : d.blankReceiver = c.blankReceiver
  framing_ge : c.framingErrorCount ≤ d.framingErrorCount
  framing_le : d.framingErrorCount ≤ c.framingErrorCount + n
  framing_max : c.framingErrorCount ≤ 2 ^ p.ctrW - 1 → d.framingErrorCount ≤ 2 ^ p.ctrW - 1

/-- The instructions that can convert a sample of channel `k`. -/
def CanConvert (k : Nat) (i : Instr) : Prop :=
  i = .convert k ∨ (∃ r, i = .convertOk k r) ∨ i = .process ∨ i = .sCheckNewPacket

/-- The instructions that can update the filter of channel `k`. -/
def CanFilter (k : Nat) (i : Instr) : Prop :=
  i = .filter k ∨ i = .filterUpd k ∨ i = .process ∨ i = .sFilterPacket

/-- The conversion stage of instruction `i` on channel `k`: at most one of the two arms, and the
hand-over of the sample. -/
inductive Converts (p : Params) (k : Nat) (i : Instr) (c : ChannelState) : ChannelState → Prop
  /-- No conversion. -/
  | idle : Converts p k i c c
  /-- The error arm. -/
  | sentinel : Converts p k i c (c.flagSentinel p)
  /-- The OK arm. -/
  | value (r : BitVec 16) (hr : r ≠ Config.errSentinel) (hi : CanConvert k i) :
      Converts p k i c (c.convertOk r)
  /-- The hand-over to the filter. -/
  | handOver {d : ChannelState} (h : Converts p k i c d) : Converts p k i c d.handToFilter

/-- The filter stage of instruction `i` on channel `k`: at most one update, of an in-range distance,
and the end of the request. -/
inductive Filters (k : Nat) (i : Instr) (c : ChannelState) : ChannelState → Prop
  /-- No update. -/
  | idle : Filters k i c c
  /-- The update arm. -/
  | update (hg : c.gate = false) (hi : CanFilter k i) : Filters k i c c.filterUpd
  /-- The request is done. -/
  | clear {d : ChannelState} (h : Filters k i c d) : Filters k i c d.clearPendingFilter

/-! ### The receiver's transitions are bytes of the first stage -/

/-- What reads no register of the receiver is as it was. -/
theorem Receives.keeps {α : Type} {p : Params} {n : Nat} {c d : ChannelState}
    (h : Receives p n c d) (f : ChannelState → α)
    (hf : ∀ x, f (ChannelState.blankReceiver x) = f x := by intro; rfl) : f d = f c := by
  rw [← hf d, h.frame, hf c]

theorem Receives.refl (p : Params) (n : Nat) (c : ChannelState) : Receives p n c c :=
  ⟨rfl, le_rfl, Nat.le_add_right _ n, id⟩

theorem Receives.trans {p : Params} {m n : Nat} {c d e : ChannelState} (hcd : Receives p m c d)
    (hde : Receives p n d e) : Receives p (m + n) c e where
  frame := hde.frame.trans hcd.frame
  framing_ge := hcd.framing_ge.trans hde.framing_ge
  framing_le := by have := hcd.framing_le; have := hde.framing_le; omega
  framing_max h := hde.framing_max (hcd.framing_max h)

theorem Receives.mono {p : Params} {m n : Nat} {c d : ChannelState} (h : Receives p m c d)
    (hmn : m ≤ n) : Receives p n c d :=
  { h with framing_le := h.framing_le.trans (Nat.add_le_add_left hmn _) }

theorem accept1_receives (p : Params) (d : BitVec 6) (c : ChannelState) :
    Receives p 1 c (c.accept1 d) := ⟨rfl, le_rfl, Nat.le_succ _, id⟩

theorem accept2_receives (p : Params) (d : BitVec 6) (c : ChannelState) :
    Receives p 1 c (c.accept2 d) := ⟨rfl, le_rfl, Nat.le_succ _, id⟩

theorem desync_receives (p : Params) (c : ChannelState) : Receives p 1 c c.desync :=
  ⟨rfl, le_rfl, Nat.le_succ _, id⟩

theorem latch_receives (p : Params) (c : ChannelState) : Receives p 0 c (c.latch p) := by
  unfold ChannelState.latch
  split
  · exact ⟨rfl, le_rfl, le_rfl, id⟩
  · exact .refl p 0 c

theorem accept3_receives (p : Params) (d : BitVec 4) (c : ChannelState) :
    Receives p 1 c (c.accept3 p d) := by
  obtain ⟨hframe, hge, hle, hmax⟩ := latch_receives p { c with rawFrame2 := d }
  exact ⟨hframe, hge, Nat.le_succ_of_le hle, hmax⟩

theorem countFraming_receives (p : Params) (c : ChannelState) :
    Receives p 1 c (c.countFraming p) :=
  ⟨rfl, le_satInc _ _, satInc_le_succ _ _, satInc_le_max⟩

theorem feed_receives (p : Params) (b : Byte) (c : ChannelState) : Receives p 1 c (c.feed p b) := by
  unfold ChannelState.feed
  split
  · exact accept1_receives p _ c
  · exact countFraming_receives p c
  · exact countFraming_receives p c
  · exact countFraming_receives p c
  · exact desync_receives p c
  · exact accept2_receives p _ c
  · exact desync_receives p c
  · exact desync_receives p c
  · exact desync_receives p c
  · exact desync_receives p c
  · exact accept3_receives p _ c
  · exact desync_receives p c

theorem takeAnswer_receives (p : Params) (a : Option Byte) (c : ChannelState) :
    Receives p 1 c (c.takeAnswer p a) := by
  cases a with
  | none => exact .refl p 1 c
  | some b => exact feed_receives p b c

theorem takeAnswers_receives (p : Params) (l : List (Option Byte)) (c : ChannelState) :
    Receives p l.length c (c.takeAnswers p l) := by
  induction l generalizing c with
  | nil => exact .refl p 0 c
  | cons a l ih =>
    rw [List.length_cons, Nat.add_comm]
    exact (takeAnswer_receives p a c).trans (ih _)

/-! ### The operations on one channel, as stages -/

theorem convert_converts {p : Params} {k : Nat} {i : Instr} (hi : CanConvert k i)
    (c : ChannelState) : Converts p k i c (c.convert p) := by
  unfold ChannelState.convert
  split
  · exact .sentinel
  · rename_i hr; exact .value _ hr hi

theorem checkPacket_converts {p : Params} {k : Nat} {i : Instr} (hi : CanConvert k i)
    (c : ChannelState) : Converts p k i c (c.checkPacket p) := by
  unfold ChannelState.checkPacket
  split
  · exact (convert_converts hi c).handOver
  · exact .idle

theorem filter_filters {k : Nat} {i : Instr} (hi : CanFilter k i) (c : ChannelState) :
    Filters k i c c.filter := by
  unfold ChannelState.filter
  split
  · exact .idle
  · rename_i hg; exact .update (Bool.eq_false_iff.mpr hg) hi

theorem filterPacket_filters {k : Nat} {i : Instr} (hi : CanFilter k i) (c : ChannelState) :
    Filters k i c c.filterPacket := by
  unfold ChannelState.filterPacket
  split
  · exact (filter_filters hi c).clear
  · exact .idle

/-- Three stages: receive, convert, filter. -/
def LaneStages (p : Params) (k : Nat) (i : Instr) (c c' : ChannelState) : Prop :=
  ∃ d e, Receives p 3 c d ∧ Converts p k i d e ∧ Filters k i e c'

theorem Receives.stages {p : Params} {k n : Nat} {i : Instr} {c d : ChannelState}
    (h : Receives p n c d) (hn : n ≤ 3) : LaneStages p k i c d :=
  ⟨d, d, h.mono hn, .idle, .idle⟩

theorem Converts.stages {p : Params} {k : Nat} {i : Instr} {c d : ChannelState}
    (h : Converts p k i c d) : LaneStages p k i c d := ⟨c, d, .refl p 3 c, h, .idle⟩

theorem Filters.stages {p : Params} {k : Nat} {i : Instr} {c d : ChannelState}
    (h : Filters k i c d) : LaneStages p k i c d := ⟨c, c, .refl p 3 c, .idle, h⟩

/-- Every effect on a lane is the three stages. -/
theorem LaneEffect.stages {p : Params} {k : Nat} {i : Instr} {c c' : ChannelState}
    (h : LaneEffect p k i c c') : LaneStages p k i c c' := by
  cases h with
  | same => exact (Receives.refl p 3 c).stages le_rfl
  | accept1 d => exact (accept1_receives p d c).stages (by decide)
  | countFraming => exact (countFraming_receives p c).stages (by decide)
  | accept2 d => exact (accept2_receives p d c).stages (by decide)
  | desync => exact (desync_receives p c).stages (by decide)
  | accept3 d => exact (accept3_receives p d c).stages (by decide)
  | drain l h3 => exact (takeAnswers_receives p l c).stages h3.le
  | flagSentinel => exact Converts.sentinel.stages
  | convertOk r _ hr => exact (Converts.value r hr (.inr (.inl ⟨r, rfl⟩))).stages
  | convert => exact (convert_converts (.inl rfl) c).stages
  | checkPacket hi => exact (checkPacket_converts (.inr (.inr hi)) c).stages
  | filter hi => exact (filter_filters (hi.imp_right .inl) c).stages
  | filterPacket hi => exact (filterPacket_filters (.inr (.inr hi)) c).stages
  | fused l h3 =>
    exact ⟨_, _, (takeAnswers_receives p l c).mono h3.le,
      checkPacket_converts (.inr (.inr (.inl rfl))) _,
      filterPacket_filters (.inr (.inr (.inl rfl))) _⟩

/-! ### From the machine to its lanes -/

theorem leaves_of_exec {i : Instr} {s t : State} (hi : i ≠ .init) (h : exec i s = .next t) :
    Leaves i s t := by
  obtain ⟨t', ht', hl⟩ := exec_leaves i s hi
  obtain rfl := Host.Outcome.next.inj (h.symm.trans ht')
  exact hl

theorem exec_stages {i : Instr} {s t : State} {k : Nat} {c : ChannelState} (hi : i ≠ .init)
    (h : exec i s = .next t) (hc : s.channels[k]? = some c) :
    ∃ c', t.channels[k]? = some c' ∧ LaneStages s.params k i c c' := by
  obtain ⟨c', hc', he⟩ := (leaves_of_exec hi h).lane k c hc
  exact ⟨c', hc', he.stages⟩

/-- Every channel of a state with the same number of channels is what became of a channel. -/
theorem State.exists_lane_of_mem {s t : State} {R : Nat → ChannelState → ChannelState → Prop}
    (hn : t.nCh = s.nCh)
    (hl : ∀ k c, s.channels[k]? = some c → ∃ c', t.channels[k]? = some c' ∧ R k c c')
    {c' : ChannelState} (hc' : c' ∈ t.channels) : ∃ k, ∃ c ∈ s.channels, R k c c' := by
  obtain ⟨k, hk, rfl⟩ := List.mem_iff_getElem.mp hc'
  have hks : k < s.channels.length := hk.trans_eq hn
  obtain ⟨c'', hc'', hr⟩ := hl k _ (List.getElem?_eq_getElem hks)
  obtain rfl := Option.some.inj ((List.getElem?_eq_getElem hk).symm.trans hc'')
  exact ⟨k, _, List.getElem_mem hks, hr⟩

end Sys2Proof.Machine

/-! PROOFS. Which stage writes a register: the event counters, the distance and its latch, the filter's
two registers (R37). -/

namespace Sys2Proof.Machine

theorem Converts.counters {p : Params} {k : Nat} {i : Instr} {c d : ChannelState}
    (h : Converts p k i c d) :
    c.errorSentinelCount ≤ d.errorSentinelCount ∧
      d.errorSentinelCount ≤ c.errorSentinelCount + 1 ∧
      d.framingErrorCount = c.framingErrorCount ∧ d.faultFlags = c.faultFlags := by
  induction h with
  | idle => exact ⟨le_rfl, Nat.le_succ _, rfl, rfl⟩
  | sentinel => exact ⟨le_satInc _ _, satInc_le_succ _ _, rfl, rfl⟩
  | value => exact ⟨le_rfl, Nat.le_succ _, rfl, rfl⟩
  | handOver _ ih => exact ih

theorem Converts.distance {p : Params} {k : Nat} {i : Instr} {c d : ChannelState}
    (h : Converts p k i c d) :
    (d.distanceMm = c.distanceMm ∧ d.newDistanceAvailable = c.newDistanceAvailable) ∨
      ((∃ r : BitVec 16, r ≠ Config.errSentinel ∧ d.distanceMm = Num.conv r) ∧
        d.errorFlag = false ∧ d.newDistanceAvailable = true ∧ CanConvert k i) := by
  induction h with
  | idle => exact .inl ⟨rfl, rfl⟩
  | sentinel => exact .inl ⟨rfl, rfl⟩
  | value r hr hi => exact .inr ⟨⟨r, hr, rfl⟩, rfl, rfl, hi⟩
  | handOver _ ih => exact ih

theorem Converts.filterRegisters {p : Params} {k : Nat} {i : Instr} {c d : ChannelState}
    (h : Converts p k i c d) :
    d.filteredValue = c.filteredValue ∧ d.previousValue = c.previousValue := by
  induction h with
  | idle => exact ⟨rfl, rfl⟩
  | sentinel => exact ⟨rfl, rfl⟩
  | value => exact ⟨rfl, rfl⟩
  | handOver _ ih => exact ih

theorem Filters.frame {k : Nat} {i : Instr} {c d : ChannelState} (h : Filters k i c d) :
    d.blankFilter = c.blankFilter := by
  induction h with
  | idle => rfl
  | update => rfl
  | clear _ ih => exact ih

/-- What reads no register of the filter is as it was. -/
theorem Filters.keeps {α : Type} {k : Nat} {i : Instr} {c d : ChannelState} (h : Filters k i c d)
    (f : ChannelState → α)
    (hf : ∀ x, f (ChannelState.blankFilter x) = f x := by intro; rfl) : f d = f c := by
  rw [← hf d, h.frame, hf c]

theorem Filters.registers {k : Nat} {i : Instr} {c d : ChannelState} (h : Filters k i c d) :
    (d.filteredValue = c.filteredValue ∧ d.previousValue = c.previousValue) ∨
      (Num.geGate d.distanceMm = false ∧ d.previousValue = d.distanceMm ∧
        d.filteredValue = Num.ema c.previousValue d.distanceMm ∧ CanFilter k i) := by
  induction h with
  | idle => exact .inl ⟨rfl, rfl⟩
  | update hg hi => exact .inr ⟨hg, rfl, rfl, hi⟩
  | clear _ ih => exact ih

/-- Settles O56: the receiver counts framing errors, the conversion counts sentinels, the filter counts
nothing, and no stage writes the fault flags. -/
theorem countersNeverDecreaseAndFaultFlagsStay :
    Obligations.CountersNeverDecreaseAndFaultFlagsStay := by
  intro i s t k c hi h hc
  obtain ⟨c', hc', d, e, hrx, hconv, hfilt⟩ := exec_stages hi h hc
  obtain ⟨herr_ge, herr_le, hframing, hflags⟩ := hconv.counters
  have herr : d.errorSentinelCount = c.errorSentinelCount := hrx.keeps _
  have herr' : c'.errorSentinelCount = e.errorSentinelCount := hfilt.keeps _
  have hframing' : c'.framingErrorCount = d.framingErrorCount := (hfilt.keeps _).trans hframing
  have hflags' : c'.faultFlags = c.faultFlags := (hfilt.keeps _).trans (hflags.trans (hrx.keeps _))
  rw [herr] at herr_ge herr_le
  refine ⟨c', hc', ?_⟩
  rw [herr', hframing']
  exact ⟨herr_ge, herr_le, hrx.framing_ge, hrx.framing_le, hflags'⟩

/-- Settles O57: only the conversion stage writes the distance and the latch. -/
theorem onlyConversionWritesTheDistance : Obligations.OnlyConversionWritesTheDistance := by
  intro i s t k c hi h hc
  obtain ⟨c', hc', d, e, hrx, hconv, hfilt⟩ := exec_stages hi h hc
  have hdist : d.distanceMm = c.distanceMm := hrx.keeps _
  have hlatch : d.newDistanceAvailable = c.newDistanceAvailable := hrx.keeps _
  have hdist' : c'.distanceMm = e.distanceMm := hfilt.keeps _
  have hlatch' : c'.newDistanceAvailable = e.newDistanceAvailable := hfilt.keeps _
  have hflag' : c'.errorFlag = e.errorFlag := hfilt.keeps _
  refine ⟨c', hc', ?_⟩
  rw [hdist', hlatch', hflag', ← hdist, ← hlatch]
  obtain ⟨hd, hl⟩ | ⟨hd, hflag, hl, hi⟩ := hconv.distance
  · exact ⟨hl.trans, .inl ⟨hd, hl⟩⟩
  · exact ⟨fun _ => hl, .inr ⟨hd, hflag, hl, hi⟩⟩

/-- Settles O58: only the filter stage writes the filter's registers. -/
theorem onlyTheFilterWritesItsRegisters : Obligations.OnlyTheFilterWritesItsRegisters := by
  intro i s t k c hi h hc
  obtain ⟨c', hc', d, e, hrx, hconv, hfilt⟩ := exec_stages hi h hc
  obtain ⟨hfiltered, hprevious⟩ := hconv.filterRegisters
  have hfiltered' : e.filteredValue = c.filteredValue := hfiltered.trans (hrx.keeps _)
  have hprevious' : e.previousValue = c.previousValue := hprevious.trans (hrx.keeps _)
  refine ⟨c', hc', ?_⟩
  rw [← hfiltered', ← hprevious']
  exact hfilt.registers

end Sys2Proof.Machine

/-! PROOFS. The invariant of the machine (R37, R38): every stage keeps the invariant of a channel, and
the debounce counter stays within its width. -/

namespace Sys2Proof.Machine

/-! ### One channel -/

theorem Receives.inv {p : Params} {n : Nat} {c d : ChannelState} (h : Receives p n c d)
    (hc : c.Inv p) : d.Inv p := by
  obtain ⟨hdist, hfilt, hflag, herr, hframing⟩ := hc
  have hdist' : d.DistanceInv = c.DistanceInv := h.keeps _
  have hfilt' : d.FilterInv = c.FilterInv := h.keeps _
  have hflag' : d.errorFlag = c.errorFlag := h.keeps _
  have herr' : d.errorSentinelCount = c.errorSentinelCount := h.keeps _
  unfold ChannelState.Inv
  rw [hdist', hfilt', hflag', herr']
  exact ⟨hdist, hfilt, hflag, herr, h.framing_max hframing⟩

theorem Converts.inv {p : Params} {k : Nat} {i : Instr} {c d : ChannelState}
    (h : Converts p k i c d) (hw : 1 ≤ p.ctrW) (hc : c.Inv p) : d.Inv p := by
  obtain ⟨hdist, hfilt, hflag, herr, hframing⟩ := hc
  induction h with
  | idle => exact ⟨hdist, hfilt, hflag, herr, hframing⟩
  | sentinel => exact ⟨hdist, hfilt, fun _ => satInc_pos hw, satInc_le_max herr, hframing⟩
  | value r hr =>
    exact ⟨.inr ⟨rfl, r, hr, rfl⟩, hfilt, fun hf => Bool.noConfusion hf, herr, hframing⟩
  | handOver _ ih => exact ih

/-- A distance below the gate is a conversion, since DIST_INIT_F is not below it (R41). -/
theorem ChannelState.DistanceInv.inRangeSample {c : ChannelState} (h : c.DistanceInv)
    (hg : c.gate = false) : InRangeSample c.distanceMm := by
  obtain ⟨hinit, -⟩ | ⟨-, r, hr, hconv⟩ := h
  · have hout : Num.geGate Config.distInit = true := by decide
    rw [ChannelState.gate, hinit, hout] at hg
    cases hg
  · exact .inr ⟨r, hr, hconv, hg⟩

theorem ChannelState.FilterInv.inRangeSample {c : ChannelState} (h : c.FilterInv) :
    InRangeSample c.previousValue := by
  obtain ⟨hzero, -⟩ | ⟨hprevious, -⟩ := h
  · exact .inl hzero
  · exact hprevious

theorem Filters.inv {p : Params} {k : Nat} {i : Instr} {c d : ChannelState}
    (h : Filters k i c d) (hc : c.Inv p) : d.Inv p := by
  obtain ⟨hdist, hfilt, hrest⟩ := hc
  induction h with
  | idle => exact ⟨hdist, hfilt, hrest⟩
  | update hg =>
    exact ⟨hdist, .inr ⟨hdist.inRangeSample hg, _, hfilt.inRangeSample, rfl⟩, hrest⟩
  | clear _ ih => exact ih

theorem LaneStages.inv {p : Params} {k : Nat} {i : Instr} {c c' : ChannelState}
    (h : LaneStages p k i c c') (hw : 1 ≤ p.ctrW) (hc : c.Inv p) : c'.Inv p := by
  obtain ⟨d, e, hrx, hconv, hfilt⟩ := h
  exact hfilt.inv (hconv.inv hw (hrx.inv hc))

theorem ChannelState.reset_inv (p : Params) (f : FaultFlags) : (ChannelState.reset f).Inv p :=
  ⟨.inl ⟨rfl, rfl⟩, .inl ⟨rfl, rfl⟩, fun hf => Bool.noConfusion hf, Nat.zero_le _, Nat.zero_le _⟩

/-! ### The debounce counter -/

@[simp] theorem State.stepWaitLaserReset_debounceCounter (s : State) :
    s.stepWaitLaserReset.debounceCounter = s.debounceCounter := by
  unfold State.stepWaitLaserReset; split <;> rfl

@[simp] theorem State.stepInitLaser_debounceCounter (s : State) :
    s.stepInitLaser.debounceCounter = s.debounceCounter := by rw [State.stepInitLaser_eq]; rfl

@[simp] theorem State.stepWaitInitDone_debounceCounter (s : State) :
    s.stepWaitInitDone.debounceCounter = s.debounceCounter := by
  unfold State.stepWaitInitDone; split <;> rfl

@[simp] theorem State.stepCheckNewData_debounceCounter (s : State) :
    s.stepCheckNewData.debounceCounter = s.debounceCounter := by
  obtain ⟨-, hdeb, -⟩ := State.drain_lanes s
  exact hdeb

@[simp] theorem State.stepCheckNewPacket_debounceCounter (s : State) :
    s.stepCheckNewPacket.debounceCounter = s.debounceCounter := by
  rw [State.stepCheckNewPacket_eq]; rfl

@[simp] theorem State.stepFilterPacket_debounceCounter (s : State) :
    s.stepFilterPacket.debounceCounter = s.debounceCounter := by
  rw [State.stepFilterPacket_eq]; rfl

/-- A row of format S keeps a counter its step keeps. -/
theorem State.whenSched_debounceCounter {s t : State} {st : SchedState} {f : State → State}
    (hf : (f s).debounceCounter = s.debounceCounter)
    (h : (.next (s.whenSched st f) : Host.Outcome State Fault Refusal) = .next t) :
    t.debounceCounter = s.debounceCounter := by
  obtain rfl := Host.Outcome.next.inj h
  unfold State.whenSched
  split
  · exact hf
  · rfl

/-- PROCESS writes the counter in Reset only (R191). -/
theorem State.process_debounceCounter (s : State) :
    s.process.debounceCounter = if s.schedState = .reset then 0 else s.debounceCounter := by
  unfold State.process
  cases s.schedState with
  | reset => rfl
  | waitLaserReset => exact s.stepWaitLaserReset_debounceCounter
  | initLaser => exact s.stepInitLaser_debounceCounter
  | waitInitDone => exact s.stepWaitInitDone_debounceCounter
  | checkNewData =>
    dsimp only
    unfold State.processCheckNewData
    split <;> simp
  | checkNewPacket => exact s.stepCheckNewPacket_debounceCounter
  | filterPacket => exact s.stepFilterPacket_debounceCounter

/-- A getter writes the model's own two fields at most (R222, R223; assumption log 12, 13). -/
theorem exec_getter {i : Instr} {ch : Nat} {s t : State} (hi : i = .getDist ch ∨ i = .getErr ch)
    (h : exec i s = .next t) : ∃ r n, t = { s with getResult := r, freeCount := n } := by
  obtain rfl | rfl := hi
  · simp only [exec, execGetDist] at h
    split at h
    · exact ⟨_, _, (Host.Outcome.next.inj h).symm⟩
    · exact ⟨_, _, (Host.Outcome.next.inj h).symm⟩
  · simp only [exec, execGetErr] at h
    split at h
    · exact ⟨_, _, (Host.Outcome.next.inj h).symm⟩
    · exact ⟨_, _, (Host.Outcome.next.inj h).symm⟩

/-- Besides TICK only INIT and S.RESET write the counter, and they zero it (R221, R191). -/
theorem exec_debounceCounter {i : Instr} {s t : State} (hi : i ≠ .tick) (h : exec i s = .next t) :
    t.debounceCounter = s.debounceCounter ∨
      (t.debounceCounter = 0 ∧
        (i = .init ∨ (s.schedState = .reset ∧ (i = .process ∨ i = .sReset)))) := by
  cases i with
  | tick => exact absurd rfl hi
  | init =>
    rw [exec_init_eq] at h
    obtain rfl := Host.Outcome.next.inj h
    exact .inr ⟨rfl, .inl rfl⟩
  | process =>
    obtain rfl := Host.Outcome.next.inj h
    rw [State.process_debounceCounter]
    split
    · rename_i hs; exact .inr ⟨rfl, .inr ⟨hs, .inl rfl⟩⟩
    · exact .inl rfl
  | sReset =>
    obtain rfl := Host.Outcome.next.inj h
    unfold State.whenSched
    split
    · rename_i hs; exact .inr ⟨rfl, .inr ⟨hs, .inr rfl⟩⟩
    · exact .inl rfl
  | sWaitLaserReset =>
    exact .inl (State.whenSched_debounceCounter s.stepWaitLaserReset_debounceCounter h)
  | sInitLaser =>
    exact .inl (State.whenSched_debounceCounter s.stepInitLaser_debounceCounter h)
  | sWaitInitDone =>
    exact .inl (State.whenSched_debounceCounter s.stepWaitInitDone_debounceCounter h)
  | sCheckNewData =>
    exact .inl (State.whenSched_debounceCounter s.stepCheckNewData_debounceCounter h)
  | sCheckNewPacket =>
    exact .inl (State.whenSched_debounceCounter s.stepCheckNewPacket_debounceCounter h)
  | sFilterPacket =>
    exact .inl (State.whenSched_debounceCounter s.stepFilterPacket_debounceCounter h)
  | getDist ch =>
    obtain ⟨r, n, rfl⟩ := exec_getter (.inl rfl) h
    exact .inl rfl
  | getErr ch =>
    obtain ⟨r, n, rfl⟩ := exec_getter (.inr rfl) h
    exact .inl rfl
  | _ => -- the operations and rows that act on one channel
    obtain rfl := Host.Outcome.next.inj h
    exact .inl (State.onChannel_debounceCounter s _ _)

theorem exec_debounceCounter_le {i : Instr} {s t : State}
    (hs : s.debounceCounter ≤ 2 ^ s.params.debW - 1) (h : exec i s = .next t) :
    t.debounceCounter ≤ 2 ^ s.params.debW - 1 := by
  by_cases hi : i = .tick
  · subst hi
    obtain rfl := Host.Outcome.next.inj h
    exact satInc_le_max hs
  · obtain hsame | ⟨hzero, -⟩ := exec_debounceCounter hi h
    · rw [hsame]; exact hs
    · rw [hzero]; exact Nat.zero_le _

/-! ### The machine -/

theorem exec_init_inv {s t : State} (hs : s.Inv) (h : exec .init s = .next t) : t.Inv := by
  rw [exec_init_eq] at h
  obtain rfl := Host.Outcome.next.inj h
  obtain ⟨hn, hw, -, -⟩ := hs
  refine ⟨hn.trans_eq List.length_replicate.symm, hw, Nat.zero_le _, fun c hc => ?_⟩
  obtain rfl := List.eq_of_mem_replicate hc
  exact ChannelState.reset_inv _ _

theorem exec_inv {i : Instr} {s t : State} (hs : s.Inv) (h : exec i s = .next t) : t.Inv := by
  by_cases hi : i = .init
  · subst hi; exact exec_init_inv hs h
  · obtain ⟨hn, hw, hdeb, hch⟩ := hs
    have hl := leaves_of_exec hi h
    unfold State.Inv
    rw [hl.params, hl.nCh]
    refine ⟨hn, hw, exec_debounceCounter_le hdeb h, fun c' hc' => ?_⟩
    obtain ⟨k, c, hc, he⟩ := State.exists_lane_of_mem hl.nCh hl.lane hc'
    exact he.stages.inv hw (hch c hc)

/-- What a step can be: idle, or the next command is removed and its instruction, if it has one, is
executed. -/
theorem step_cases {s t : State} (h : step s = .next t) :
    (s.queue = [] ∧ t = s) ∨
      ∃ c rest, s.queue = c :: rest ∧
        (t = s.setQueue rest ∨ ∃ i, decode c = .ok i ∧ exec i (s.setQueue rest) = .next t) := by
  cases hq : s.queue with
  | nil =>
    rw [step_idle hq] at h
    exact .inl ⟨rfl, (Host.Outcome.next.inj h).symm⟩
  | cons c rest =>
    refine .inr ⟨c, rest, rfl, ?_⟩
    simp only [step, State.fetch_cons hq] at h
    split at h
    · rename_i i hi; exact .inr ⟨i, hi, h⟩
    · exact .inl (Host.Outcome.next.inj h).symm
    · cases h

/-- Settles O54: no field of the invariant is the queue, so a step keeps it because every instruction
does. -/
theorem stepKeepsTheInvariant : Obligations.StepKeepsTheInvariant := by
  intro s t hs h
  obtain ⟨-, rfl⟩ | ⟨c, rest, -, rfl | ⟨i, -, he⟩⟩ := step_cases h
  · exact hs
  · exact hs
  · have hs' : (s.setQueue rest).Inv := hs
    exact exec_inv hs' he

end Sys2Proof.Machine

/-! PROOFS. The one-shot flags under scheduler-only operation (R38(f), R200): the step of each data state
clears the flag the next state expects clear, and nothing outside the data states sets one. -/

namespace Sys2Proof.Machine

/-! ### The flags a stage leaves -/

@[simp] theorem checkPacket_newPacketReady (p : Params) (c : ChannelState) :
    (c.checkPacket p).newPacketReady = false := by
  unfold ChannelState.checkPacket
  split
  · rfl
  · rename_i h; exact Bool.eq_false_iff.mpr h

@[simp] theorem filter_newPacketReady (c : ChannelState) :
    c.filter.newPacketReady = c.newPacketReady := by
  unfold ChannelState.filter; split <;> rfl

@[simp] theorem filterPacket_newPacketReady (c : ChannelState) :
    c.filterPacket.newPacketReady = c.newPacketReady := by
  unfold ChannelState.filterPacket
  split
  · exact filter_newPacketReady c
  · rfl

@[simp] theorem filterPacket_pendingFilter (c : ChannelState) :
    c.filterPacket.pendingFilter = false := by
  unfold ChannelState.filterPacket
  split
  · rfl
  · rename_i h; exact Bool.eq_false_iff.mpr h

/-! ### The steps -/

/-- Neither one-shot flag is set on any channel. -/
def State.FlagsClear (s : State) : Prop :=
  ∀ c ∈ s.channels, c.newPacketReady = false ∧ c.pendingFilter = false

theorem State.FlagsClear.pipelineInv {s : State} (h : s.FlagsClear) : s.PipelineInv := by
  unfold State.PipelineInv
  cases s.schedState with
  | checkNewPacket => exact fun c hc => (h c hc).2
  | filterPacket => exact fun c hc => (h c hc).1
  | reset => exact h
  | waitLaserReset => exact h
  | initLaser => exact h
  | waitInitDone => exact h
  | checkNewData => exact h

/-- The drain is the first stage on every channel (R195). -/
theorem State.receives_of_mem_stepCheckNewData {s : State} {c' : ChannelState}
    (h : c' ∈ s.stepCheckNewData.channels) : ∃ c ∈ s.channels, Receives s.params 3 c c' := by
  obtain ⟨-, -, -, -, hn, hlanes⟩ := State.drain_lanes s
  have hrx : ∀ (k : Nat) (c : ChannelState), s.channels[k]? = some c →
      ∃ c', s.drain.channels[k]? = some c' ∧ Receives s.params 3 c c' := by
    intro k c hc
    obtain ⟨l, h3, hk⟩ := hlanes k c hc
    exact ⟨_, hk, h3 ▸ takeAnswers_receives s.params l c⟩
  obtain ⟨-, hc⟩ := State.exists_lane_of_mem (R := fun _ => Receives s.params 3) hn hrx h
  exact hc

theorem stepCheckNewData_pendingFilter {s : State} (hs : s.FlagsClear) :
    ∀ c ∈ s.stepCheckNewData.channels, c.pendingFilter = false := by
  intro c' hc'
  obtain ⟨c, hc, hrx⟩ := State.receives_of_mem_stepCheckNewData hc'
  have hkeep : c'.pendingFilter = c.pendingFilter := hrx.keeps _
  exact hkeep.trans (hs c hc).2

theorem stepCheckNewPacket_newPacketReady (s : State) :
    ∀ c ∈ s.stepCheckNewPacket.channels, c.newPacketReady = false := by
  simp [State.stepCheckNewPacket_eq]

theorem stepFilterPacket_flagsClear {s : State}
    (hs : ∀ c ∈ s.channels, c.newPacketReady = false) : s.stepFilterPacket.FlagsClear := by
  simpa [State.FlagsClear, State.stepFilterPacket_eq] using hs

theorem process_pipelineInv {s : State} (hs : s.PipelineInv) : s.process.PipelineInv := by
  unfold State.PipelineInv at hs
  unfold State.process
  cases hst : s.schedState <;> rw [hst] at hs <;> dsimp only at hs ⊢
  case reset => exact State.FlagsClear.pipelineInv hs
  case waitLaserReset =>
    apply State.FlagsClear.pipelineInv
    unfold State.stepWaitLaserReset
    split <;> exact hs
  case initLaser =>
    rw [State.stepInitLaser_eq]
    exact State.FlagsClear.pipelineInv hs
  case waitInitDone =>
    apply State.FlagsClear.pipelineInv
    unfold State.stepWaitInitDone
    split <;> exact hs
  case checkNewData =>
    unfold State.processCheckNewData
    split
    · exact stepCheckNewData_pendingFilter hs
    · exact (stepFilterPacket_flagsClear (stepCheckNewPacket_newPacketReady _)).pipelineInv
  case checkNewPacket => exact stepCheckNewPacket_newPacketReady s
  case filterPacket => exact (stepFilterPacket_flagsClear hs).pipelineInv

/-! ### The step -/

theorem reset_flagsClear {n : Nat} {f : FaultFlags} :
    ∀ c ∈ List.replicate n (ChannelState.reset f),
      c.newPacketReady = false ∧ c.pendingFilter = false := by
  intro c hc
  obtain rfl := List.eq_of_mem_replicate hc
  exact ⟨rfl, rfl⟩

/-- The operations a scheduler-only environment issues (R291). -/
theorem decode_schedulerOnly {c : Cmd} {i : Instr} (hc : schedulerOnly c = true)
    (hi : decode c = .ok i) :
    i = .init ∨ i = .tick ∨ i = .process ∨ i = .getDist c.ch ∨ i = .getErr c.ch := by
  obtain ⟨f, key, ch, b⟩ := c
  simp only [schedulerOnly, Bool.and_eq_true, Bool.or_eq_true, beq_iff_eq, or_assoc] at hc
  obtain ⟨rfl, rfl | rfl | rfl | rfl | rfl⟩ := hc
  · exact .inl (Except.ok.inj hi).symm
  · exact .inr (.inl (Except.ok.inj hi).symm)
  · exact .inr (.inr (.inl (Except.ok.inj hi).symm))
  · exact .inr (.inr (.inr (.inl (Except.ok.inj hi).symm)))
  · exact .inr (.inr (.inr (.inr (Except.ok.inj hi).symm)))

theorem exec_queue {i : Instr} {s t : State} (h : exec i s = .next t) : t.queue = s.queue := by
  by_cases hi : i = .init
  · subst hi
    rw [exec_init_eq] at h
    obtain rfl := Host.Outcome.next.inj h
    rfl
  · exact (leaves_of_exec hi h).queue

theorem exec_schedulerOnly_pipelineInv {c : Cmd} {i : Instr} {s t : State}
    (hc : schedulerOnly c = true) (hi : decode c = .ok i) (hs : s.PipelineInv)
    (h : exec i s = .next t) : t.PipelineInv := by
  obtain rfl | rfl | rfl | rfl | rfl := decode_schedulerOnly hc hi
  · rw [exec_init_eq] at h
    obtain rfl := Host.Outcome.next.inj h
    exact reset_flagsClear
  · obtain rfl := Host.Outcome.next.inj h
    exact hs
  · obtain rfl := Host.Outcome.next.inj h
    exact process_pipelineInv hs
  · obtain ⟨r, n, rfl⟩ := exec_getter (.inl rfl) h
    exact hs
  · obtain ⟨r, n, rfl⟩ := exec_getter (.inr rfl) h
    exact hs

/-- Settles O42: PROCESS moves the flags along the pipeline, INIT clears them, and no other
scheduler-only operation writes a channel. -/
theorem stepKeepsThePipelineFlags : Obligations.StepKeepsThePipelineFlags := by
  intro s t hs hq h
  obtain ⟨-, rfl⟩ | ⟨c, rest, hqueue, ht⟩ := step_cases h
  · exact ⟨hs, hq⟩
  · obtain ⟨hc, hrest⟩ := List.forall_mem_cons.mp (hqueue ▸ hq)
    have hs' : (s.setQueue rest).PipelineInv := hs
    obtain rfl | ⟨i, hi, he⟩ := ht
    · exact ⟨hs', hrest⟩
    · exact ⟨exec_schedulerOnly_pipelineInv hc hi hs' he, exec_queue he ▸ hrest⟩

end Sys2Proof.Machine

/-! PROOFS. The state right after reset (R41). -/

namespace Sys2Proof.Machine

theorem State.mem_resetWith_channels {n : Nat} {p : Params} {c : ChannelState}
    (h : c ∈ (State.resetWith n p).channels) : c = ChannelState.reset p.faultInit :=
  List.eq_of_mem_replicate h

theorem Num.toRat_filtInit : Num.toRat Config.filtInit = 0 := by
  have h0 : Num.scaled Config.filtInit = 0 := Num.scaled_zero
  rw [Num.toRat, h0, Int.cast_zero, zero_div]

theorem Num.distInit_eq : Config.distInit = Num.rne32 999999 10 := by decide

/-- Settles O49: every channel is `ChannelState.reset`, whose two real constants have R41's values. -/
theorem registersAtReset : Obligations.RegistersAtReset := by
  intro n p
  refine ⟨rfl, rfl, List.length_replicate, fun c hc => ?_⟩
  obtain rfl := State.mem_resetWith_channels hc
  exact ⟨rfl, rfl, rfl, rfl, rfl, Num.distInit_eq, Num.toRat_filtInit, Num.toRat_filtInit,
    rfl, rfl, rfl, rfl, rfl, rfl, rfl⟩

theorem State.resetWith_inv {n : Nat} {p : Params} (hn : 1 ≤ n) (hw : 1 ≤ p.ctrW) :
    (State.resetWith n p).Inv := by
  refine ⟨hn.trans_eq List.length_replicate.symm, hw, Nat.zero_le _, fun c hc => ?_⟩
  obtain rfl := State.mem_resetWith_channels hc
  exact ChannelState.reset_inv _ _

/-- Settles O55: a channel after reset meets the channel invariant and has no flag set. -/
theorem invariantsAtReset : Obligations.InvariantsAtReset :=
  ⟨State.resetWith_inv (by decide) (by decide), reset_flagsClear, fun _ _ =>
    ⟨reset_flagsClear, State.resetWith_inv⟩⟩

end Sys2Proof.Machine

/-! PROOFS. A channel index at or above N_CH (R61) and one step of the trace (R73). -/

namespace Sys2Proof.Machine

/-! ### The rows and the getters on one channel -/

/-- Every row of format W acts on its own channel only (R91). -/
theorem exec_wireRow_eq_onChannel (rx : RxState) (ch : Nat) (b : Byte) (s : State) :
    ∃ f, exec (wireRow rx ch b) s = .next (s.onChannel ch f) := by
  unfold wireRow
  cases rx <;> cases tagOf b <;> exact ⟨_, rfl⟩

/-- Either arm of CONVERT acts on its own channel only (R151, R152). -/
theorem exec_convertRow_eq_onChannel (ch : Nat) (r : BitVec 16) (s : State) :
    ∃ f, exec (convertRow ch r) s = .next (s.onChannel ch f) := by
  unfold convertRow
  split <;> exact ⟨_, rfl⟩

/-- Either arm of FILTER acts on its own channel only (R171, R172). -/
theorem exec_filterRow_eq_onChannel (ch : Nat) (g : Bool) (s : State) :
    ∃ f, exec (filterRow ch g) s = .next (s.onChannel ch f) := by
  unfold filterRow
  split <;> exact ⟨_, rfl⟩

theorem exec_getDist_of_some {s : State} {ch : Nat} {c : ChannelState}
    (h : s.channels[ch]? = some c) :
    exec (.getDist ch) s = .next (s.setGetResult (.real c.distanceMm)) := by
  simp only [exec, execGetDist, h]

theorem exec_getDist_of_none {s : State} {ch : Nat} (h : s.channels[ch]? = none) :
    exec (.getDist ch) s =
      .next (s.countDraw.setGetResult (.real (Config.freeReal s.freeCount))) := by
  simp only [exec, execGetDist, h]

theorem exec_getErr_of_some {s : State} {ch : Nat} {c : ChannelState}
    (h : s.channels[ch]? = some c) :
    exec (.getErr ch) s = .next (s.setGetResult (.bool c.errorFlag)) := by
  simp only [exec, execGetErr, h]

theorem exec_getErr_of_none {s : State} {ch : Nat} (h : s.channels[ch]? = none) :
    exec (.getErr ch) s =
      .next (s.countDraw.setGetResult (.bool (Config.freeBool s.freeCount))) := by
  simp only [exec, execGetErr, h]

/-- An outcome that acts on a channel with a bad index is the outcome that changes nothing. -/
theorem eq_next_of_onChannel_of_le {o : Host.Outcome State Fault Refusal} {s : State} {ch : Nat}
    (h : s.nCh ≤ ch) (ho : ∃ f, o = .next (s.onChannel ch f)) : o = .next s := by
  obtain ⟨f, rfl⟩ := ho
  rw [State.onChannel_of_le f h]

/-- Settles O19: all but the getters act on the named channel only, of which there is none, and a
getter finds none there to read. -/
theorem badIndexChangesNothing : Obligations.BadIndexChangesNothing := by
  intro s ch h
  have hnone : s.channels[ch]? = none := List.getElem?_eq_none h
  exact
    ⟨fun _ => eq_next_of_onChannel_of_le h ⟨_, rfl⟩,
      eq_next_of_onChannel_of_le h ⟨_, rfl⟩,
      eq_next_of_onChannel_of_le h ⟨_, rfl⟩,
      fun rx b => eq_next_of_onChannel_of_le h (exec_wireRow_eq_onChannel rx ch b s),
      fun r => eq_next_of_onChannel_of_le h (exec_convertRow_eq_onChannel ch r s),
      fun g => eq_next_of_onChannel_of_le h (exec_filterRow_eq_onChannel ch g s),
      ⟨_, exec_getDist_of_none hnone⟩, ⟨_, exec_getErr_of_none hnone⟩⟩

/-- Settles O51: the fetch removes the command, and a command that decodes is executed. -/
theorem stepRunsTheDecodedInstruction : Obligations.StepRunsTheDecodedInstruction := by
  intro s c rest i hqueue hdecode
  simp only [step, State.fetch_cons hqueue, hdecode]
  rfl

end Sys2Proof.Machine

/-! PROOFS. TICK and the other operations (R73, R247): an operation that does not run S.RESET or
S.WAITLASERRESET and is not INIT neither reads nor writes the debounce counter, so that another counter
before it is the same other counter after it; and TICK is a change of that counter. -/

namespace Sys2Proof.Machine

/-! ### Operations under another debounce counter -/

@[simp] theorem State.onChannel_setDebounce (s : State) (n ch : Nat)
    (f : ChannelState → ChannelState) :
    (s.setDebounce n).onChannel ch f = (s.onChannel ch f).setDebounce n := by
  rw [State.onChannel_eq, State.onChannel_eq]; rfl

@[simp] theorem State.stepInitLaser_setDebounce (s : State) (n : Nat) :
    (s.setDebounce n).stepInitLaser = s.stepInitLaser.setDebounce n := by
  rw [State.stepInitLaser_eq, State.stepInitLaser_eq]; rfl

@[simp] theorem State.stepWaitInitDone_setDebounce (s : State) (n : Nat) :
    (s.setDebounce n).stepWaitInitDone = s.stepWaitInitDone.setDebounce n := by
  have hanswer : (s.setDebounce n).initDoneAnswer = s.initDoneAnswer := rfl
  unfold State.stepWaitInitDone
  rw [hanswer]
  split <;> rfl

/-- One burst iteration of the drain. -/
@[simp] theorem State.sweep_setDebounce (s : State) (n : Nat) :
    (s.setDebounce n).forChannels State.pollChannel =
      (s.forChannels State.pollChannel).setDebounce n := by
  rw [State.sweep_eq, State.sweep_eq]; rfl

@[simp] theorem State.stepCheckNewData_setDebounce (s : State) (n : Nat) :
    (s.setDebounce n).stepCheckNewData = s.stepCheckNewData.setDebounce n := by
  have hdrain (t : State) : t.drain =
      ((t.forChannels State.pollChannel).forChannels State.pollChannel).forChannels
        State.pollChannel := rfl
  unfold State.stepCheckNewData
  simp only [hdrain, State.sweep_setDebounce]
  rfl

@[simp] theorem State.stepCheckNewPacket_setDebounce (s : State) (n : Nat) :
    (s.setDebounce n).stepCheckNewPacket = s.stepCheckNewPacket.setDebounce n := by
  rw [State.stepCheckNewPacket_eq, State.stepCheckNewPacket_eq]; rfl

@[simp] theorem State.stepFilterPacket_setDebounce (s : State) (n : Nat) :
    (s.setDebounce n).stepFilterPacket = s.stepFilterPacket.setDebounce n := by
  rw [State.stepFilterPacket_eq, State.stepFilterPacket_eq]; rfl

/-- A row of format S, when its step, if selected, does not touch the counter. -/
theorem State.whenSched_setDebounce {s t : State} {n : Nat} {st : SchedState} {f : State → State}
    (hf : s.schedState = st → f (s.setDebounce n) = (f s).setDebounce n)
    (h : (.next (s.whenSched st f) : Host.Outcome State Fault Refusal) = .next t) :
    (.next ((s.setDebounce n).whenSched st f) : Host.Outcome State Fault Refusal) =
      .next (t.setDebounce n) := by
  obtain rfl := Host.Outcome.next.inj h
  unfold State.whenSched
  rw [State.setDebounce_schedState]
  split
  · rename_i hst; rw [hf hst]
  · rfl

/-- Only the first two steps of the scheduler touch the counter (R191, R192). -/
theorem State.process_setDebounce {s : State} (n : Nat) (hreset : s.schedState ≠ .reset)
    (hwait : s.schedState ≠ .waitLaserReset) :
    (s.setDebounce n).process = s.process.setDebounce n := by
  unfold State.process
  rw [State.setDebounce_schedState]
  cases hst : s.schedState with
  | reset => exact absurd hst hreset
  | waitLaserReset => exact absurd hst hwait
  | initLaser => exact s.stepInitLaser_setDebounce n
  | waitInitDone => exact s.stepWaitInitDone_setDebounce n
  | checkNewData =>
    dsimp only
    unfold State.processCheckNewData
    rw [State.setDebounce_params]
    split <;> simp
  | checkNewPacket => exact s.stepCheckNewPacket_setDebounce n
  | filterPacket => exact s.stepFilterPacket_setDebounce n

/-- An instruction that neither writes nor tests the counter answers the same under another counter,
which it leaves in place. -/
theorem exec_setDebounce {i : Instr} {s t : State} (n : Nat) (hinit : i ≠ .init) (htick : i ≠ .tick)
    (hreset : s.schedState = .reset → i ≠ .process ∧ i ≠ .sReset)
    (hwait : s.schedState = .waitLaserReset → i ≠ .process ∧ i ≠ .sWaitLaserReset)
    (h : exec i s = .next t) : exec i (s.setDebounce n) = .next (t.setDebounce n) := by
  cases i with
  | init => exact absurd rfl hinit
  | tick => exact absurd rfl htick
  | process =>
    obtain rfl := Host.Outcome.next.inj h
    exact congrArg _ (State.process_setDebounce n (fun hst => (hreset hst).1 rfl)
      fun hst => (hwait hst).1 rfl)
  | sReset =>
    exact State.whenSched_setDebounce (fun hst => absurd rfl (hreset hst).2) h
  | sWaitLaserReset =>
    exact State.whenSched_setDebounce (fun hst => absurd rfl (hwait hst).2) h
  | sInitLaser =>
    exact State.whenSched_setDebounce (fun _ => s.stepInitLaser_setDebounce n) h
  | sWaitInitDone =>
    exact State.whenSched_setDebounce (fun _ => s.stepWaitInitDone_setDebounce n) h
  | sCheckNewData =>
    exact State.whenSched_setDebounce (fun _ => s.stepCheckNewData_setDebounce n) h
  | sCheckNewPacket =>
    exact State.whenSched_setDebounce (fun _ => s.stepCheckNewPacket_setDebounce n) h
  | sFilterPacket =>
    exact State.whenSched_setDebounce (fun _ => s.stepFilterPacket_setDebounce n) h
  | getDist ch =>
    cases hc : s.channels[ch]? with
    | none =>
      obtain rfl := Host.Outcome.next.inj ((exec_getDist_of_none hc).symm.trans h)
      exact exec_getDist_of_none hc
    | some c =>
      obtain rfl := Host.Outcome.next.inj ((exec_getDist_of_some hc).symm.trans h)
      exact exec_getDist_of_some hc
  | getErr ch =>
    cases hc : s.channels[ch]? with
    | none =>
      obtain rfl := Host.Outcome.next.inj ((exec_getErr_of_none hc).symm.trans h)
      exact exec_getErr_of_none hc
    | some c =>
      obtain rfl := Host.Outcome.next.inj ((exec_getErr_of_some hc).symm.trans h)
      exact exec_getErr_of_some hc
  | _ => -- the operations and rows that act on one channel
    obtain rfl := Host.Outcome.next.inj h
    exact congrArg _ (State.onChannel_setDebounce s n _ _)

/-! ### TICK and another operation -/

theorem execAll_pair {i j : Instr} {s t : State} (h : exec i s = .next t) :
    execAll [i, j] s = exec j t := by
  simp only [execAll, h]
  cases exec j t <;> rfl

/-- TICK depends on the counter and the parameters alone (R220). -/
theorem exec_tick_of_same {s t : State} (hdeb : t.debounceCounter = s.debounceCounter)
    (hpar : t.params = s.params) :
    exec .tick t = .next (t.setDebounce (satInc s.params.debW s.debounceCounter)) := by
  rw [← hdeb, ← hpar]; rfl

/-- Settles O46: the operation keeps the counter and the parameters, hence TICK's count, and answers
the same under that count. -/
theorem tickCommutesWithOtherOperations : Obligations.TickCommutesWithOtherOperations := by
  intro i s hinit hreset hwait
  by_cases htick : i = .tick
  · subst htick
    exact ⟨rfl, _, rfl⟩
  obtain ⟨t, ht, hleaves⟩ := exec_leaves i s hinit
  have hdeb : t.debounceCounter = s.debounceCounter := by
    obtain hsame | ⟨-, rfl | ⟨hst, rfl | rfl⟩⟩ := exec_debounceCounter htick ht
    · exact hsame
    · exact absurd rfl hinit
    · exact absurd rfl (hreset hst).1
    · exact absurd rfl (hreset hst).2
  have hbefore : execAll [.tick, i] s =
      .next (t.setDebounce (satInc s.params.debW s.debounceCounter)) :=
    (execAll_pair rfl).trans (exec_setDebounce _ hinit htick hreset hwait ht)
  have hafter : execAll [i, .tick] s =
      .next (t.setDebounce (satInc s.params.debW s.debounceCounter)) :=
    (execAll_pair ht).trans (exec_tick_of_same hdeb hleaves.params)
  exact ⟨hbefore.trans hafter.symm, _, hbefore⟩

end Sys2Proof.Machine

/-! PROOFS. Encodings (30_encoding.md): the bytes of a sample as tag and low bits, the decoder and
the encoder on the keys of each format, and the opcode table on the same keys. A key within its
format's width is the extension of a key of that width, and on those keys the decoder is, format by
format, the selection of R91, R190, R150, R170 or R97. -/

namespace Sys2Proof

/-! ### A byte as its tag and its low bits (R90, R92) -/

/-- The framing bits of a tag (R90). -/
def tagCode : Tag → BitVec 2
  | .t00 => 0b00
  | .t01 => 0b01
  | .t10 => 0b10
  | .t11 => 0b11

theorem append_and_tagMask (tag : BitVec 2) (low : BitVec 6) :
    (tag ++ low) &&& Config.tagMask = tag ++ (0 : BitVec 6) := by
  have hmask : Config.tagMask = BitVec.allOnes 2 ++ (0 : BitVec 6) := by decide
  rw [hmask, BitVec.and_append, BitVec.and_allOnes]
  exact congrArg _ BitVec.and_zero

@[simp] theorem tagOf_append (t : Tag) (low : BitVec 6) : tagOf (tagCode t ++ low) = t := by
  unfold tagOf
  rw [append_and_tagMask]
  cases t <;> decide

@[simp] theorem lowBits_append (tag : BitVec 2) (low : BitVec 6) : lowBits (tag ++ low) = low :=
  BitVec.extractLsb'_append_eq_right

@[simp] theorem field0Of_append (tag : BitVec 2) (low : BitVec 6) :
    field0Of (tag ++ low) = low := by
  have hmask : Config.dataMask1.setWidth 6 = BitVec.allOnes 6 := by decide
  rw [field0Of, BitVec.setWidth_and, hmask, BitVec.and_allOnes, BitVec.setWidth_append_eq_right]

@[simp] theorem field1Of_append (tag : BitVec 2) (low : BitVec 6) : field1Of (tag ++ low) = low :=
  field0Of_append tag low

@[simp] theorem field2Of_append (tag : BitVec 2) (low : BitVec 6) :
    field2Of (tag ++ low) = low.setWidth 4 := by
  have hmask : Config.dataMask3.setWidth 4 = BitVec.allOnes 4 := by decide
  rw [field2Of, BitVec.setWidth_and, hmask, BitVec.and_allOnes,
    ← BitVec.setWidth_setWidth_of_le (l := 6) _ (by decide), BitVec.setWidth_append_eq_right]

@[simp] theorem reservedBits_append (tag : BitVec 2) (low : BitVec 6) :
    reservedBits (tag ++ low) = low.extractLsb' 4 2 :=
  BitVec.extractLsb'_append_eq_of_add_le (by decide)

theorem extractLsb'_append_setWidth {m n : Nat} (x : BitVec (m + n)) :
    x.extractLsb' n m ++ x.setWidth n = x := by
  rw [BitVec.setWidth_eq_extractLsb' (Nat.le_add_left n m),
    BitVec.extractLsb'_append_extractLsb'_eq_extractLsb' (Nat.zero_add n).symm,
    BitVec.extractLsb'_eq_self]

theorem exists_append {m n : Nat} (x : BitVec (m + n)) :
    ∃ (hi : BitVec m) (lo : BitVec n), x = hi ++ lo :=
  ⟨_, _, (extractLsb'_append_setWidth x).symm⟩

theorem exists_tagCode (code : BitVec 2) : ∃ t, tagCode t = code := by
  have hcode : code = 0 ∨ code = 1 ∨ code = 2 ∨ code = 3 := by revert code; decide
  obtain rfl | rfl | rfl | rfl := hcode
  exacts [⟨.t00, rfl⟩, ⟨.t01, rfl⟩, ⟨.t10, rfl⟩, ⟨.t11, rfl⟩]

/-- Every byte is a tag and six low bits. -/
theorem exists_tagCode_append (b : Byte) :
    ∃ (t : Tag) (low : BitVec 6), b = tagCode t ++ low := by
  obtain ⟨code, low, rfl⟩ := exists_append (m := 2) (n := 6) b
  obtain ⟨t, rfl⟩ := exists_tagCode code
  exact ⟨t, low, rfl⟩

/-! ### The decoder on the keys of each format (R99) -/

/-- The extension of a key passes the decoder's test of the width. -/
theorem not_le_toNat_setWidth {n : Nat} (k : BitVec n) : ¬ 2 ^ n ≤ (k.setWidth 16).toNat :=
  Nat.not_le.mpr ((BitVec.toNat_setWidth 16 k).trans_lt ((Nat.mod_le _ _).trans_lt k.isLt))

/-- A key within a width is the extension of a key of that width. -/
theorem exists_setWidth_of_lt {n : Nat} {key : BitVec 16} (h : key.toNat < 2 ^ n) :
    ∃ k : BitVec n, key = k.setWidth 16 := by
  refine ⟨key.setWidth n, BitVec.eq_of_toNat_eq ?_⟩
  rw [BitVec.toNat_setWidth, BitVec.toNat_setWidth, Nat.mod_eq_of_lt h, Nat.mod_eq_of_lt key.isLt]

theorem decode_of_le {c : Cmd} (h : 2 ^ c.format.width ≤ c.key.toNat) :
    decode c = .error (.noRow c.format c.key) := if_pos h

/-- Format W: the position in bits 9 and 8, the wire byte in bits 7 to 0. -/
theorem decode_wireKey (code : BitVec 2) (byte : Byte) (ch : Nat) (b : Byte) :
    (decode ⟨.W, (code ++ byte).setWidth 16, ch, b⟩).toOption =
      (rxOfCode code).map fun rx => wireRow rx ch byte := by
  refine (congrArg Except.toOption (if_neg (not_le_toNat_setWidth _))).trans ?_
  dsimp only
  rw [BitVec.extractLsb'_setWidth_of_le (by decide), BitVec.extractLsb'_setWidth_of_le (by decide),
    BitVec.extractLsb'_append_eq_left, BitVec.extractLsb'_append_eq_right]
  cases rxOfCode code <;> rfl

theorem decode_schedKey (code : BitVec 3) (ch : Nat) (b : Byte) :
    (decode ⟨.S, code.setWidth 16, ch, b⟩).toOption = (schedOfCode code).map schedRow := by
  refine (congrArg Except.toOption (if_neg (not_le_toNat_setWidth _))).trans ?_
  dsimp only
  rw [BitVec.extractLsb'_setWidth_of_le (by decide), BitVec.extractLsb'_eq_self]
  cases schedOfCode code <;> rfl

theorem decode_rawKey (key : BitVec 16) (ch : Nat) (b : Byte) :
    decode ⟨.C, key, ch, b⟩ = .ok (convertRow ch key) := if_neg (Nat.not_le.mpr key.isLt)

theorem decode_gateKey (g : BitVec 1) (ch : Nat) (b : Byte) :
    decode ⟨.G, g.setWidth 16, ch, b⟩ = .ok (filterRow ch (g.getLsbD 0)) := by
  refine (if_neg (not_le_toNat_setWidth _)).trans ?_
  exact congrArg (fun bit => Except.ok (filterRow ch bit)) (BitVec.getLsbD_setWidth 16 g 0)

theorem decode_opKey (code : BitVec 4) (ch : Nat) (b : Byte) :
    (decode ⟨.OP, code.setWidth 16, ch, b⟩).toOption = opOfCode code ch b := by
  refine (congrArg Except.toOption (if_neg (not_le_toNat_setWidth _))).trans ?_
  dsimp only
  rw [BitVec.extractLsb'_setWidth_of_le (by decide), BitVec.extractLsb'_eq_self]
  cases opOfCode code ch b <;> rfl

theorem toOption_eq_some {ε α : Type} {r : Except ε α} {a : α} :
    r.toOption = some a ↔ r = .ok a := by
  cases r with
  | ok x => exact ⟨fun h => congrArg _ (Option.some.inj h), fun h => congrArg _ (Except.ok.inj h)⟩
  | error e => exact ⟨nofun, nofun⟩

/-! ### The codes of the table (R97) -/

@[simp] theorem rxOfCode_rxCode (rx : RxState) : rxOfCode (rxCode rx) = some rx := by
  cases rx <;> rfl

@[simp] theorem schedOfCode_schedCode (st : SchedState) : schedOfCode (schedCode st) = some st := by
  cases st <;> rfl

theorem rxCode_of_rxOfCode {code : BitVec 2} {rx : RxState} (h : rxOfCode code = some rx) :
    rxCode rx = code := by
  revert code; cases rx <;> decide

theorem schedCode_of_schedOfCode {code : BitVec 3} {st : SchedState}
    (h : schedOfCode code = some st) : schedCode st = code := by
  revert code; cases st <;> decide

/-- The commands whose key is within its format's width, format by format. -/
theorem Cmd.cases_of_lt {motive : (c : Cmd) → c.key.toNat < 2 ^ c.format.width → Prop}
    (wire : ∀ (code : BitVec 2) (byte : Byte) ch b h,
      motive ⟨.W, (code ++ byte).setWidth 16, ch, b⟩ h)
    (sched : ∀ (code : BitVec 3) ch b h, motive ⟨.S, code.setWidth 16, ch, b⟩ h)
    (raw : ∀ (key : BitVec 16) ch b h, motive ⟨.C, key, ch, b⟩ h)
    (gate : ∀ (g : BitVec 1) ch b h, motive ⟨.G, g.setWidth 16, ch, b⟩ h)
    (op : ∀ (code : BitVec 4) ch b h, motive ⟨.OP, code.setWidth 16, ch, b⟩ h)
    (c : Cmd) (h : c.key.toNat < 2 ^ c.format.width) : motive c h := by
  obtain ⟨f, key, ch, b⟩ := c
  obtain ⟨k, rfl⟩ : ∃ k : BitVec f.width, key = k.setWidth 16 := exists_setWidth_of_lt h
  cases f with
  | W =>
    obtain ⟨code, byte, rfl⟩ := exists_append (m := 2) (n := 8) k
    exact wire code byte ch b h
  | S => exact sched k ch b h
  | C => exact raw _ ch b h
  | G => exact gate k ch b h
  | OP => exact op k ch b h

/-! ### The encoder on what the decoder selects -/

theorem wireRow_wellFormed (rx : RxState) (ch : Nat) (byte : Byte) :
    (wireRow rx ch byte).wellFormed = true := by
  unfold wireRow
  cases rx <;> cases tagOf byte <;> rfl

/-- The key of a wire command is the position's code beside the whole byte. -/
theorem wireCmd_eq (ch : Nat) (rx : RxState) (tag : BitVec 2) (low : BitVec 6) :
    wireCmd ch rx tag low = ⟨.W, (rxCode rx ++ (tag ++ low)).setWidth 16, ch, 0⟩ := by
  rw [wireCmd, BitVec.append_assoc]; rfl

theorem encode_wireRow (rx : RxState) (ch : Nat) (byte : Byte) :
    encode (wireRow rx ch byte) = ⟨.W, (rxCode rx ++ byte).setWidth 16, ch, 0⟩ := by
  obtain ⟨t, low, rfl⟩ := exists_tagCode_append byte
  rw [← wireCmd_eq]
  simp only [wireRow, tagOf_append, lowBits_append, field0Of_append, field1Of_append,
    field2Of_append, reservedBits_append]
  cases rx with
  | awaitingByte1 => cases t <;> rfl
  | awaitingByte2 => cases t <;> rfl
  | awaitingByte3 =>
    cases t with
    | t10 => exact congrArg (wireCmd ch _ _) (extractLsb'_append_setWidth (m := 2) (n := 4) low)
    | _ => rfl

theorem schedRow_wellFormed (st : SchedState) : (schedRow st).wellFormed = true := by
  cases st <;> rfl

theorem encode_schedRow (st : SchedState) : encode (schedRow st) = schedCmd st := by
  cases st <;> rfl

/-- The sentinel selects CONVERT.ERR, so CONVERT.OK is selected by another key (R99). -/
theorem convertRow_wellFormed (ch : Nat) (raw : BitVec 16) :
    (convertRow ch raw).wellFormed = true := by
  unfold convertRow
  split
  · rfl
  · exact bne_iff_ne.mpr ‹_›

theorem encode_convertRow (ch : Nat) (raw : BitVec 16) :
    encode (convertRow ch raw) = ⟨.C, raw, ch, 0⟩ := by
  unfold convertRow
  split
  · subst raw; rfl
  · rfl

theorem filterRow_wellFormed (ch : Nat) (g : Bool) : (filterRow ch g).wellFormed = true := by
  cases g <;> rfl

theorem encode_filterRow (ch : Nat) (g : BitVec 1) :
    encode (filterRow ch (g.getLsbD 0)) = ⟨.G, g.setWidth 16, ch, 0⟩ := by
  obtain rfl | rfl := BitVec.eq_zero_or_eq_one g <;> rfl

theorem encode_of_opOfCode {code : BitVec 4} {ch : Nat} {b : Byte} {i : Instr}
    (h : opOfCode code ch b = some i) :
    i.wellFormed = true ∧ (encode i).format = .OP ∧ (encode i).key = code.setWidth 16 := by
  unfold opOfCode at h
  split_ifs at h <;> obtain rfl := Option.some.inj h <;> subst code <;> exact ⟨rfl, rfl, rfl⟩

/-! ### The decoder on what the encoder writes -/

theorem decode_wireCmd {rx : RxState} {ch : Nat} (t : Tag) {low : BitVec 6} {i : Instr}
    (hi : wireRow rx ch (tagCode t ++ low) = i) :
    decode (wireCmd ch rx (tagCode t) low) = .ok i := by
  rw [← toOption_eq_some, wireCmd_eq, decode_wireKey, rxOfCode_rxCode, ← hi]
  rfl

theorem decode_schedCmd (st : SchedState) : decode (schedCmd st) = .ok (schedRow st) := by
  rw [← toOption_eq_some, schedCmd, decode_schedKey, schedOfCode_schedCode]
  rfl

/-! ### The opcode table on the same keys (R99) -/

/-- Masking a key with bits that every row of its format keeps does not change the row. -/
theorem firstRow_and {f : Format} {m : BitVec 16}
    (hm : ∀ r ∈ opcodeTable, r.format = f → m &&& r.mask = r.mask) (key : BitVec 16) :
    firstRow f (key &&& m) = firstRow f key := by
  refine List.find?_congr fun r hr => ?_
  by_cases hf : r.format = f
  · rw [BitVec.and_assoc, hm r hr hf]
  · rw [beq_eq_false_iff_ne.mpr hf, Bool.false_and, Bool.false_and]

/-- A row of format W is its position and its tag. -/
theorem wireRow_row (rx : RxState) (ch : Nat) (t : Tag) (low : BitVec 6) :
    (wireRow rx ch (tagCode t ++ low)).row =
      ⟨.W, (rxCode rx ++ (tagCode t ++ (0 : BitVec 6))).setWidth 16, 0x3C0⟩ := by
  unfold wireRow
  rw [tagOf_append]
  cases rx <;> cases t <;> rfl

theorem firstRow_wireKey (code : BitVec 2) (byte : Byte) (ch : Nat) :
    firstRow .W ((code ++ byte).setWidth 16) =
      (rxOfCode code).map fun rx => (wireRow rx ch byte).row := by
  obtain ⟨t, low, rfl⟩ := exists_tagCode_append byte
  have hmask : (code ++ (tagCode t ++ low)).setWidth 16 &&& 0x3C0 =
      (code ++ (tagCode t ++ (0 : BitVec 6))).setWidth 16 := by
    have hbits : (0x3C0 : BitVec 16) =
        (BitVec.allOnes 2 ++ Config.tagMask).setWidth 16 := by decide
    rw [hbits, ← BitVec.setWidth_and, BitVec.and_append, BitVec.and_allOnes, append_and_tagMask]
  rw [← firstRow_and (m := 0x3C0) (by decide), hmask]
  clear hmask
  simp only [wireRow_row]
  revert code
  cases t <;> decide

theorem firstRow_schedKey (code : BitVec 3) :
    firstRow .S (code.setWidth 16) = (schedOfCode code).map fun st => (schedRow st).row := by
  revert code; decide

/-- CONVERT.ERR stands first and takes the sentinel, CONVERT.OK every other key. -/
theorem firstRow_rawKey (key : BitVec 16) (ch : Nat) :
    firstRow .C key = some (convertRow ch key).row := by
  have hrows : firstRow .C key =
      [(⟨.C, 0xFFBB, 0xFFFF⟩ : Row), ⟨.C, 0x0000, 0x0000⟩].find? fun r =>
        key &&& r.mask == r.value := rfl
  unfold convertRow
  split
  · subst key; rfl
  · have herr : (key &&& 0xFFFF == 0xFFBB) = false :=
      beq_eq_false_iff_ne.mpr (BitVec.and_allOnes.trans_ne ‹_›)
    have hok : (key &&& 0x0000 == 0x0000) = true := beq_iff_eq.mpr BitVec.and_zero
    rw [hrows, List.find?_cons, herr, List.find?_cons, hok]
    rfl

theorem firstRow_gateKey (g : BitVec 1) (ch : Nat) :
    firstRow .G (g.setWidth 16) = some (filterRow ch (g.getLsbD 0)).row := by
  obtain rfl | rfl := BitVec.eq_zero_or_eq_one g <;> rfl

theorem opOfCode_row (code : BitVec 4) (ch : Nat) (b : Byte) :
    (opOfCode code ch b).map Instr.row = (opOfCode code 0 0).map Instr.row := by
  unfold opOfCode
  split_ifs <;> rfl

theorem firstRow_opKey (code : BitVec 4) (ch : Nat) (b : Byte) :
    firstRow .OP (code.setWidth 16) = (opOfCode code ch b).map Instr.row := by
  rw [opOfCode_row]
  revert code; decide

/-! ### The statements -/

/-- Settles O1, format by format: the key of the encoding selects the row it was written from. -/
theorem decodeOfEncodeIsTheInstruction : Obligations.DecodeOfEncodeIsTheInstruction := by
  intro i hi
  cases i with
  | rx1Acc ch d => exact decode_wireCmd .t00 (by simp [wireRow])
  | rx1Rej01 ch x => exact decode_wireCmd .t01 (by simp [wireRow])
  | rx1Rej10 ch x => exact decode_wireCmd .t10 (by simp [wireRow])
  | rx1Rej11 ch x => exact decode_wireCmd .t11 (by simp [wireRow])
  | rx2Acc ch d => exact decode_wireCmd .t01 (by simp [wireRow])
  | rx2Rej00 ch x => exact decode_wireCmd .t00 (by simp [wireRow])
  | rx2Rej10 ch x => exact decode_wireCmd .t10 (by simp [wireRow])
  | rx2Rej11 ch x => exact decode_wireCmd .t11 (by simp [wireRow])
  | rx3Acc ch rr d =>
    have hrr : reservedBits (tagCode .t10 ++ (rr ++ d)) = rr :=
      (reservedBits_append _ _).trans BitVec.extractLsb'_append_eq_left
    have hd : field2Of (tagCode .t10 ++ (rr ++ d)) = d :=
      (field2Of_append _ _).trans BitVec.setWidth_append_eq_right
    refine decode_wireCmd .t10 ?_
    simp only [wireRow, tagOf_append]
    exact congrArg₂ (Instr.rx3Acc ch) hrr hd
  | rx3Rej00 ch x => exact decode_wireCmd .t00 (by simp [wireRow])
  | rx3Rej01 ch x => exact decode_wireCmd .t01 (by simp [wireRow])
  | rx3Rej11 ch x => exact decode_wireCmd .t11 (by simp [wireRow])
  | sReset => exact decode_schedCmd .reset
  | sWaitLaserReset => exact decode_schedCmd .waitLaserReset
  | sInitLaser => exact decode_schedCmd .initLaser
  | sWaitInitDone => exact decode_schedCmd .waitInitDone
  | sCheckNewData => exact decode_schedCmd .checkNewData
  | sCheckNewPacket => exact decode_schedCmd .checkNewPacket
  | sFilterPacket => exact decode_schedCmd .filterPacket
  | convertErr ch => exact decode_rawKey Config.errSentinel ch 0
  | convertOk ch raw =>
    have hraw : convertRow ch raw = .convertOk ch raw := if_neg (bne_iff_ne.mp hi)
    exact (decode_rawKey raw ch 0).trans (congrArg _ hraw)
  | filterHold ch => exact decode_gateKey 1 ch 0
  | filterUpd ch => exact decode_gateKey 0 ch 0
  | _ => exact toOption_eq_some.mp (decode_opKey _ _ _) -- the operations

/-- Settles O2: the row selected by a key is written back as that key. -/
theorem encodeOfDecodeKeepsTheKey : Obligations.EncodeOfDecodeKeepsTheKey := by
  intro c i h
  have hlt : c.key.toNat < 2 ^ c.format.width := by
    by_contra hge
    exact nomatch (decode_of_le (Nat.not_lt.mp hge)).symm.trans h
  cases c, hlt using Cmd.cases_of_lt with
  | wire code byte ch b =>
    rw [← toOption_eq_some, decode_wireKey, Option.map_eq_some_iff] at h
    obtain ⟨rx, hrx, rfl⟩ := h
    rw [encode_wireRow, rxCode_of_rxOfCode hrx]
    exact ⟨wireRow_wellFormed rx ch byte, rfl, rfl⟩
  | sched code ch b =>
    rw [← toOption_eq_some, decode_schedKey, Option.map_eq_some_iff] at h
    obtain ⟨st, hst, rfl⟩ := h
    rw [encode_schedRow, schedCmd, schedCode_of_schedOfCode hst]
    exact ⟨schedRow_wellFormed st, rfl, rfl⟩
  | raw key ch b =>
    obtain rfl := Except.ok.inj ((decode_rawKey key ch b).symm.trans h)
    rw [encode_convertRow]
    exact ⟨convertRow_wellFormed ch key, rfl, rfl⟩
  | gate g ch b =>
    obtain rfl := Except.ok.inj ((decode_gateKey g ch b).symm.trans h)
    rw [encode_filterRow]
    exact ⟨filterRow_wellFormed ch _, rfl, rfl⟩
  | op code ch b =>
    rw [← toOption_eq_some, decode_opKey] at h
    exact encode_of_opOfCode h

/-- The decoder and the table select the same row, or neither selects one. -/
theorem firstRow_eq_decode (c : Cmd) (h : c.key.toNat < 2 ^ c.format.width) :
    firstRow c.format c.key = (decode c).toOption.map Instr.row := by
  cases c, h using Cmd.cases_of_lt with
  | wire code byte ch b =>
    rw [decode_wireKey, Option.map_map]
    exact firstRow_wireKey code byte ch
  | sched code ch b =>
    rw [decode_schedKey, Option.map_map]
    exact firstRow_schedKey code
  | raw key ch b =>
    rw [decode_rawKey]
    exact firstRow_rawKey key ch
  | gate g ch b =>
    rw [decode_gateKey]
    exact firstRow_gateKey g ch
  | op code ch b =>
    rw [decode_opKey]
    exact firstRow_opKey code ch b

/-- Settles O3: a key the decoder reads has the row of its instruction, any other has none. -/
theorem decoderFollowsTheOpcodeTable : Obligations.DecoderFollowsTheOpcodeTable := by
  intro c h
  rw [firstRow_eq_decode c h]
  cases decode c <;> rfl

/-- Settles O5: a byte is its tag and its low bits, and the tag alone selects the row. -/
theorem transitionTableSelectsByStateAndTag :
    Obligations.TransitionTableSelectsByStateAndTag := by
  intro ch b
  obtain ⟨t, low, rfl⟩ := exists_tagCode_append b
  have hand : (tagCode t ++ low) &&& 0xC0 = tagCode t ++ (0 : BitVec 6) := append_and_tagMask _ _
  simp only [wireRow_row, hand]
  cases t <;> decide

/-- Settles O4: each word is the encoding of the instruction it stands for. -/
theorem wordsOfTheSpecDecode : Obligations.WordsOfTheSpecDecode :=
  ⟨decodeOfEncodeIsTheInstruction (.rx1Acc 1 5) rfl,
    decodeOfEncodeIsTheInstruction (.rx3Acc 0 0b11 7) rfl,
    decodeOfEncodeIsTheInstruction .sCheckNewData rfl,
    decodeOfEncodeIsTheInstruction (.convertErr 0) rfl,
    decodeOfEncodeIsTheInstruction (.convertOk 0 65468) rfl,
    decodeOfEncodeIsTheInstruction (.filterHold 0) rfl,
    decodeOfEncodeIsTheInstruction (.feed 2 0x3B) rfl⟩

namespace Machine

/-- Settles O6: the fields do not overlap, so no sum carries. -/
theorem assemblyIsTheConcatenation : Obligations.AssemblyIsTheConcatenation := by
  intro f0 f1 f2
  have hsum : (assemble f0 f1 f2).toNat = f0.toNat + f1.toNat * 2 ^ 6 + f2.toNat * 2 ^ 12 := by
    simp only [assemble, BitVec.toNat_add, BitVec.toNat_shiftLeft, BitVec.toNat_setWidth,
      Nat.shiftLeft_eq]
    omega
  refine ⟨BitVec.eq_of_toNat_eq ?_, hsum, Nat.le_of_lt_succ (assemble f0 f1 f2).isLt⟩
  rw [hsum, BitVec.toNat_append, BitVec.toNat_append,
    ← Nat.shiftLeft_add_eq_or_of_lt f0.isLt, ← Nat.shiftLeft_add_eq_or_of_lt f1.isLt]
  simp only [Nat.shiftLeft_eq]
  omega

/-! ### Rows the machine does not select (R91) -/

/-- A function that leaves the channel as it is leaves the state as it is. -/
theorem State.onChannel_of_fixed {s : State} {ch : Nat} {c : ChannelState}
    {f : ChannelState → ChannelState} (hc : s.channels[ch]? = some c) (hf : f c = c) :
    s.onChannel ch f = s := by
  rw [State.onChannel_of_some f hc, hf]
  obtain ⟨hlt, rfl⟩ := List.getElem?_eq_some_iff.mp hc
  rw [List.set_getElem_self]
  rfl

theorem ChannelState.whenRx_of_ne {c : ChannelState} {rx : RxState} (h : c.rxState ≠ rx)
    (f : ChannelState → ChannelState) : c.whenRx rx f = c := if_neg h

theorem State.whenSched_of_ne {s : State} {st : SchedState} (h : s.schedState ≠ st)
    (f : State → State) : s.whenSched st f = s := if_neg h

theorem exec_schedRow_of_ne {s : State} {st : SchedState} (h : s.schedState ≠ st) :
    exec (schedRow st) s = .next s := by
  cases st <;> exact congrArg _ (State.whenSched_of_ne h _)

/-- Settles O14: the row's guard leaves the channel, or the state, as it is. -/
theorem unselectedRowsChangeNothing : Obligations.UnselectedRowsChangeNothing := by
  intro s ch c hc
  have hfixed {f : ChannelState → ChannelState} (hf : f c = c) :
      (.next (s.onChannel ch f) : Host.Outcome State Fault Refusal) = .next s :=
    congrArg _ (State.onChannel_of_fixed hc hf)
  have hrow {rx : RxState} (hrx : c.rxState ≠ rx) (f : ChannelState → ChannelState) :=
    hfixed (ChannelState.whenRx_of_ne hrx f)
  exact
    ⟨fun hrx _ => ⟨hrow hrx _, hrow hrx _, hrow hrx _, hrow hrx _⟩,
      fun hrx _ => ⟨hrow hrx _, hrow hrx _, hrow hrx _, hrow hrx _⟩,
      fun hrx _ _ _ => ⟨hrow hrx _, hrow hrx _, hrow hrx _, hrow hrx _⟩,
      fun _ => exec_schedRow_of_ne,
      fun hraw => hfixed (if_neg hraw),
      fun _ hraw => hfixed (if_neg fun hkey => hraw hkey.1),
      fun hgate => hfixed (if_pos hgate),
      fun hgate => hfixed (if_neg (Bool.eq_false_iff.mp hgate))⟩

end Machine
end Sys2Proof

/-! PROOFS. The Channel Decoder (40_decoder.md): a row on a channel in the row's position, FEED
position by position, the decoder position after a byte, and a row of FEEDs. -/

namespace Sys2Proof.Machine

/-! ### A row on a channel in its position (R121 to R132) -/

/-- An operation on one channel writes that channel and nothing else. -/
theorem next_onChannel_of_some {s : State} {ch : Nat} {c c' : ChannelState}
    {f : ChannelState → ChannelState} (hc : s.channels[ch]? = some c) (hf : f c = c') :
    (.next (s.onChannel ch f) : Host.Outcome State Fault Refusal) =
      .next { s with channels := s.channels.set ch c' } := by
  rw [State.onChannel_of_some f hc, hf]
  rfl

theorem ChannelState.whenRx_of_eq {c : ChannelState} {rx : RxState} (h : c.rxState = rx)
    (f : ChannelState → ChannelState) : c.whenRx rx f = f c := if_pos h

theorem ChannelState.accept3_eq (p : Params) (d : BitVec 4) (c : ChannelState) :
    c.accept3 p d =
      { c with
        rawFrame2 := d
        raw18 :=
          if p.rawLatch = .atCompletion then assemble c.rawFrame0 c.rawFrame1 d else c.raw18
        newPacketReady := true
        rxState := .awaitingByte1 } := by
  unfold ChannelState.accept3 ChannelState.latch
  cases p.rawLatch <;> rfl

/-- Settles O7: the row's guard is met. -/
theorem firstByteIsAccepted : Obligations.FirstByteIsAccepted := fun _ _ _ _ hc hrx =>
  next_onChannel_of_some hc (ChannelState.whenRx_of_eq hrx _)

/-- Settles O8: the three rows count alike. -/
theorem framingErrorsAreCounted : Obligations.FramingErrorsAreCounted := by
  rintro s ch c x i hc hrx (rfl | rfl | rfl)
  all_goals exact next_onChannel_of_some hc (ChannelState.whenRx_of_eq hrx _)

/-- Settles O9: the row's guard is met. -/
theorem secondByteIsAccepted : Obligations.SecondByteIsAccepted := fun _ _ _ _ hc hrx =>
  next_onChannel_of_some hc (ChannelState.whenRx_of_eq hrx _)

/-- Settles O10: the six rows drop the sample alike. -/
theorem desyncDropsTheSample : Obligations.DesyncDropsTheSample := by
  rintro s ch c x i hc (⟨hrx, rfl | rfl | rfl⟩ | ⟨hrx, rfl | rfl | rfl⟩)
  all_goals exact next_onChannel_of_some hc (ChannelState.whenRx_of_eq hrx _)

/-- Settles O11: the assembled value is the concatenation of the fields. -/
theorem thirdByteCompletesTheSample : Obligations.ThirdByteCompletesTheSample := by
  intro s ch c rr d hc hrx
  rw [← (assemblyIsTheConcatenation c.rawFrame0 c.rawFrame1 d).1]
  exact next_onChannel_of_some hc
    ((ChannelState.whenRx_of_eq hrx _).trans (ChannelState.accept3_eq _ _ _))

/-! ### FEED position by position (R91, R120) -/

theorem tagOf_eq_iff (b : Byte) (t : Tag) :
    tagOf b = t ↔ b &&& Config.tagMask = tagCode t ++ (0 : BitVec 6) := by
  obtain ⟨u, low, rfl⟩ := exists_tagCode_append b
  rw [append_and_tagMask, tagOf_append]
  exact ⟨fun h => h ▸ rfl, fun h => by simpa only [tagOf_append] using congrArg tagOf h⟩

theorem ChannelState.feed_of_awaitingByte1 {c : ChannelState} (h : c.rxState = .awaitingByte1)
    (p : Params) (b : Byte) :
    c.feed p b = if b &&& 0xC0 = 0x00 then c.accept1 (field0Of b) else c.countFraming p := by
  have htag : tagOf b = .t00 ↔ b &&& 0xC0 = 0x00 := tagOf_eq_iff b .t00
  simp only [ChannelState.feed, h, ← htag]
  cases tagOf b <;> rfl

theorem ChannelState.feed_of_awaitingByte2 {c : ChannelState} (h : c.rxState = .awaitingByte2)
    (p : Params) (b : Byte) :
    c.feed p b = if b &&& 0xC0 = 0x40 then c.accept2 (field1Of b) else c.desync := by
  have htag : tagOf b = .t01 ↔ b &&& 0xC0 = 0x40 := tagOf_eq_iff b .t01
  simp only [ChannelState.feed, h, ← htag]
  cases tagOf b <;> rfl

theorem ChannelState.feed_of_awaitingByte3 {c : ChannelState} (h : c.rxState = .awaitingByte3)
    (p : Params) (b : Byte) :
    c.feed p b = if b &&& 0xC0 = 0x80 then c.accept3 p (field2Of b) else c.desync := by
  have htag : tagOf b = .t10 ↔ b &&& 0xC0 = 0x80 := tagOf_eq_iff b .t10
  simp only [ChannelState.feed, h, ← htag]
  cases tagOf b <;> rfl

theorem field2Of_toNat (b : Byte) : (field2Of b).toNat = b.toNat % 16 := by
  have hmask : b.toNat &&& Config.dataMask3.toNat = b.toNat % 2 ^ 4 :=
    Nat.and_two_pow_sub_one_eq_mod _ 4
  rw [field2Of, BitVec.toNat_setWidth, BitVec.toNat_and, hmask]
  exact Nat.mod_mod _ _

/-- The assembly of R93 with its third field read off the byte. -/
theorem assemble_field2Of (f0 f1 : BitVec 6) (b : Byte) :
    assemble f0 f1 (field2Of b) =
      BitVec.ofNat 16 (f0.toNat + f1.toNat * 64 + b.toNat % 16 * 4096) := by
  obtain ⟨-, hsum, -⟩ := assemblyIsTheConcatenation f0 f1 (field2Of b)
  have hself : BitVec.ofNat 16 (assemble f0 f1 (field2Of b)).toNat = assemble f0 f1 (field2Of b) :=
    (BitVec.ofNat_toNat _ _).trans (BitVec.setWidth_eq _)
  rw [← hself, hsum, field2Of_toNat]
  rfl

/-- Settles O12: each position has its accepted tag, and all other bytes are rejected alike. -/
theorem feedFollowsTheSourceTable : Obligations.FeedFollowsTheSourceTable := by
  refine fun s ch b => ⟨fun h => congrArg _ (State.onChannel_of_le _ h), fun c hc => ?_⟩
  refine next_onChannel_of_some hc ?_
  split
  next hrx => exact ChannelState.feed_of_awaitingByte1 hrx _ _
  next hrx => exact ChannelState.feed_of_awaitingByte2 hrx _ _
  next hrx =>
    rw [ChannelState.feed_of_awaitingByte3 hrx, ChannelState.accept3_eq, assemble_field2Of]
    rfl

/-- The selected row of format W does to its channel what FEED does (R120). -/
theorem exec_wireRow_of_some {s : State} {ch : Nat} {c : ChannelState}
    (hc : s.channels[ch]? = some c) (b : Byte) :
    exec (wireRow c.rxState ch b) s =
      .next { s with channels := s.channels.set ch (c.feed s.params b) } := by
  unfold wireRow ChannelState.feed
  cases hrx : c.rxState <;> cases tagOf b
  all_goals exact next_onChannel_of_some hc (ChannelState.whenRx_of_eq hrx _)

/-- Settles O13: both write the same channel. -/
theorem feedRunsTheSelectedTransition : Obligations.FeedRunsTheSelectedTransition :=
  fun _ _ _ b hc => ⟨_, next_onChannel_of_some hc rfl, exec_wireRow_of_some hc b⟩

/-! ### The decoder position after a byte (R133) -/

/-- A byte leads to AwaitingByte1, or it is accepted and leads one position on. -/
theorem ChannelState.feed_rxState_cases (p : Params) (b : Byte) (c : ChannelState) :
    (c.feed p b).rxState = .awaitingByte1 ∨
      Accepts c.rxState b ∧
        ((c.rxState = .awaitingByte1 ∧ (c.feed p b).rxState = .awaitingByte2) ∨
          (c.rxState = .awaitingByte2 ∧ (c.feed p b).rxState = .awaitingByte3)) := by
  cases hrx : c.rxState with
  | awaitingByte1 =>
    rw [ChannelState.feed_of_awaitingByte1 hrx]
    split
    next hacc => exact .inr ⟨hacc, .inl ⟨rfl, rfl⟩⟩
    next => exact .inl hrx
  | awaitingByte2 =>
    rw [ChannelState.feed_of_awaitingByte2 hrx]
    split
    next hacc => exact .inr ⟨hacc, .inr ⟨rfl, rfl⟩⟩
    next => exact .inl rfl
  | awaitingByte3 =>
    rw [ChannelState.feed_of_awaitingByte3 hrx]
    split <;> exact .inl rfl

/-- Of three positions in a row one is AwaitingByte1. -/
theorem ChannelState.awaitingByte1_of_feed_feed (p q : Params) (b b' : Byte) (c : ChannelState) :
    c.rxState = .awaitingByte1 ∨ (c.feed p b).rxState = .awaitingByte1 ∨
      ((c.feed p b).feed q b').rxState = .awaitingByte1 := by
  obtain hrx | ⟨-, ⟨hrx, -⟩ | ⟨-, hrx⟩⟩ := c.feed_rxState_cases p b
  · exact .inr (.inl hrx)
  · exact .inl hrx
  · obtain hrx' | ⟨-, ⟨hrx', -⟩ | ⟨hrx', -⟩⟩ := (c.feed p b).feed_rxState_cases q b'
    · exact .inr (.inr hrx')
    · cases hrx.symm.trans hrx'
    · cases hrx.symm.trans hrx'

theorem getElem?_of_exec_feed {s t : State} {ch : Nat} {b : Byte} {c : ChannelState}
    (h : exec (.feed ch b) s = .next t) (hc : s.channels[ch]? = some c) :
    t.channels[ch]? = some (c.feed s.params b) := by
  obtain rfl := Host.Outcome.next.inj h
  rw [State.onChannel_channels, List.getElem?_modify_eq, hc]
  rfl

/-- Settles O16: the channel after each byte is the one FEED of the channel before it leaves. -/
theorem threeBytesPassThroughAwaitingByte1 : Obligations.ThreeBytesPassThroughAwaitingByte1 := by
  refine ⟨fun s t ch c b hc hrej h => ⟨_, getElem?_of_exec_feed h hc, ?_⟩, ?_⟩
  · exact (c.feed_rxState_cases s.params b).resolve_right fun ⟨hacc, _⟩ => hrej hacc
  · intro s t₁ t₂ t₃ ch b₁ b₂ b₃ hch h₁ h₂ h₃
    have hc₁ := getElem?_of_exec_feed h₁ (List.getElem?_eq_getElem hch)
    have hc₂ := getElem?_of_exec_feed h₂ hc₁
    have hc₃ := getElem?_of_exec_feed h₃ hc₂
    obtain hrx | hrx | hrx := ChannelState.awaitingByte1_of_feed_feed t₁.params t₂.params b₂ b₃
      (s.channels[ch].feed s.params b₁)
    · exact ⟨_, .inl hc₁, hrx⟩
    · exact ⟨_, .inr (.inl hc₂), hrx⟩
    · exact ⟨_, .inr (.inr hc₃), hrx⟩

theorem rxState_of_completesAt {s : State} {ch : Nat} {b : Byte} {c : ChannelState}
    (h : CompletesAt s ch b) (hc : s.channels[ch]? = some c) : c.rxState = .awaitingByte3 := by
  obtain ⟨d, hd, hrx, -⟩ := h
  obtain rfl := Option.some.inj (hc.symm.trans hd)
  exact hrx

/-- A completion leads to AwaitingByte1. -/
theorem awaitingByte1_of_completesAt {s t : State} {ch : Nat} {b : Byte}
    (h : exec (.feed ch b) s = .next t) (hs : CompletesAt s ch b) :
    ∃ c, t.channels[ch]? = some c ∧ c.rxState = .awaitingByte1 := by
  obtain ⟨c, hc, hrx, -⟩ := hs
  refine ⟨_, getElem?_of_exec_feed h hc, ?_⟩
  have hcases := c.feed_rxState_cases s.params b
  simpa [hrx] using hcases

theorem not_completesAt_of_completesAt {s t : State} {ch : Nat} {b b' : Byte}
    (h : exec (.feed ch b) s = .next t) (hs : CompletesAt s ch b) : ¬ CompletesAt t ch b' := by
  obtain ⟨c, hc, hrx⟩ := awaitingByte1_of_completesAt h hs
  intro ht
  cases hrx.symm.trans (rxState_of_completesAt ht hc)

/-- Settles O17: a completion leads to AwaitingByte1, which is two bytes from AwaitingByte3. -/
theorem threeBytesCompleteAtMostOnce : Obligations.ThreeBytesCompleteAtMostOnce := by
  intro s t₁ t₂ ch b₁ b₂ b₃ h₁ h₂
  refine ⟨fun ⟨hs, ht₁⟩ => not_completesAt_of_completesAt h₁ hs ht₁, fun ⟨hs, ht₂⟩ => ?_,
    fun ⟨ht₁, ht₂⟩ => not_completesAt_of_completesAt h₂ ht₁ ht₂⟩
  obtain ⟨c, hc, hrx⟩ := awaitingByte1_of_completesAt h₁ hs
  have hrx₂ := rxState_of_completesAt ht₂ (getElem?_of_exec_feed h₂ hc)
  have hcases := c.feed_rxState_cases t₁.params b₂
  simp [hrx, hrx₂] at hcases

/-! ### A sample is three bytes (R133(a)) -/

/-- A list of bytes fed to one channel, one after the other. -/
theorem execAll_feed {s : State} {ch : Nat} {c : ChannelState} (hc : s.channels[ch]? = some c)
    (bs : List Byte) :
    ∃ t, execAll (bs.map (Instr.feed ch)) s = .next t ∧
      t.channels[ch]? = some (c.takeAnswers s.params (bs.map some)) := by
  induction bs generalizing s c with
  | nil => exact ⟨s, rfl, hc⟩
  | cons b bs ih =>
    have h : exec (.feed ch b) s = .next (s.onChannel ch (ChannelState.feed s.params b)) := rfl
    obtain ⟨t, ht, hct⟩ := ih (getElem?_of_exec_feed h hc)
    rw [State.onChannel_params] at hct
    exact ⟨t, ht, hct⟩

theorem ChannelState.feed_t00 {c : ChannelState} (h : c.rxState = .awaitingByte1) (p : Params)
    (low : BitVec 6) : c.feed p (tagCode .t00 ++ low) = c.accept1 low := by
  simp only [ChannelState.feed, h, tagOf_append, field0Of_append]

theorem ChannelState.feed_t01 {c : ChannelState} (h : c.rxState = .awaitingByte2) (p : Params)
    (low : BitVec 6) : c.feed p (tagCode .t01 ++ low) = c.accept2 low := by
  simp only [ChannelState.feed, h, tagOf_append, field1Of_append]

theorem ChannelState.feed_t10 {c : ChannelState} (h : c.rxState = .awaitingByte3) (p : Params)
    (low : BitVec 6) : c.feed p (tagCode .t10 ++ low) = c.accept3 p (low.setWidth 4) := by
  simp only [ChannelState.feed, h, tagOf_append, field2Of_append]

/-- The bytes of `enc(r)` carry the three fields of `r` behind their tags (R94). -/
theorem encSample_append (f2 : BitVec 4) (f1 f0 : BitVec 6) :
    encSample (f2 ++ f1 ++ f0) =
      (tagCode .t00 ++ f0, tagCode .t01 ++ f1, tagCode .t10 ++ f2.setWidth 6) := by
  refine Prod.ext ?_ (Prod.ext ?_ ?_)
  all_goals
    apply BitVec.eq_of_getLsbD_eq
    intro i hi
    simp only [encSample, BitVec.getLsbD_or, BitVec.getLsbD_setWidth, BitVec.getLsbD_and,
      BitVec.getLsbD_ushiftRight, BitVec.getLsbD_append]
    interval_cases i <;> simp [tagCode]

theorem append_or_reserved (f2 : BitVec 4) (rr : BitVec 2) :
    (tagCode .t10 ++ f2.setWidth 6) ||| (rr.setWidth 8 <<< 4) = tagCode .t10 ++ (rr ++ f2) := by
  apply BitVec.eq_of_getLsbD_eq
  intro i hi
  simp only [BitVec.getLsbD_or, BitVec.getLsbD_setWidth, BitVec.getLsbD_shiftLeft,
    BitVec.getLsbD_append]
  interval_cases i <;> simp

/-- Settles O15: every byte of an encoded value is accepted, and the fields assemble the value. -/
theorem encodedSampleAssembles : Obligations.EncodedSampleAssembles := by
  intro s ch c r rr hc hrx hlatch
  obtain ⟨hi, f0, rfl⟩ := exists_append (m := 10) (n := 6) r
  obtain ⟨f2, f1, rfl⟩ := exists_append (m := 4) (n := 6) hi
  rw [encSample_append, append_or_reserved]
  obtain ⟨t, ht, hct⟩ := execAll_feed hc
    [tagCode .t00 ++ f0, tagCode .t01 ++ f1, tagCode .t10 ++ (rr ++ f2)]
  have hsample : c.takeAnswers s.params
      ([tagCode .t00 ++ f0, tagCode .t01 ++ f1, tagCode .t10 ++ (rr ++ f2)].map some) =
        ((c.accept1 f0).accept2 f1).accept3 s.params f2 := by
    simp only [ChannelState.takeAnswers, List.map, List.foldl, ChannelState.takeAnswer]
    rw [ChannelState.feed_t00 hrx, ChannelState.feed_t01 rfl, ChannelState.feed_t10 rfl,
      BitVec.setWidth_append_eq_right]
  rw [hsample, ChannelState.accept3_eq, if_pos hlatch] at hct
  exact ⟨t, _, ht, hct, (assemblyIsTheConcatenation f0 f1 f2).1, rfl, rfl, rfl⟩

end Sys2Proof.Machine

/-! PROOFS. The conversion (41_conversion.md): the value CONVERT reads under either RAW_LATCH, its two
arms, and the order of the converted values. -/

namespace Sys2Proof.Machine

/-! ### The operand and the arms of CONVERT (R150 to R152, R155) -/

/-- The latch, or without it the concatenation of the fields as they stand (R93, R155). -/
theorem ChannelState.rawOperand_eq (p : Params) (c : ChannelState) :
    c.rawOperand p =
      if p.rawLatch = .atCompletion then c.raw18
      else c.rawFrame2 ++ c.rawFrame1 ++ c.rawFrame0 := by
  rw [← (assemblyIsTheConcatenation c.rawFrame0 c.rawFrame1 c.rawFrame2).1]
  unfold ChannelState.rawOperand
  cases p.rawLatch <;> rfl

/-- Settles O20: the row's guard is met. -/
theorem sentinelIsFlaggedAndCounted : Obligations.SentinelIsFlaggedAndCounted :=
  fun _ _ _ hc hraw => next_onChannel_of_some hc (if_pos hraw)

/-- Settles O21: the row's guard is met, and the value stored is the rounded quotient of R153. -/
theorem otherValuesAreConverted : Obligations.OtherValuesAreConverted := by
  intro s ch c r hc hraw hne
  rw [← Num.conv_eq]
  exact next_onChannel_of_some hc (if_pos ⟨hraw, hne⟩)

/-- Settles O22: both arms act on the one value that is tested. -/
theorem convertTakesTheArmOfItsValue : Obligations.ConvertTakesTheArmOfItsValue := by
  intro s ch c r hc hr
  obtain rfl : c.rawOperand s.params = r := (c.rawOperand_eq s.params).trans hr.symm
  exact next_onChannel_of_some hc rfl

/-! ### The order of the converted values (R154) -/

/-- The quotients of two values lie at least 17/21840 apart, more than two rounding errors. -/
theorem Num.toRat_conv_lt {r q : BitVec 16} (h : r < q) :
    Num.toRat (Num.conv r) < Num.toRat (Num.conv q) := by
  have hgap : (r.toNat : ℚ) + 1 ≤ q.toNat := by exact_mod_cast BitVec.lt_def.mp h
  have hr := (abs_le.mp (Num.abs_toRat_conv_sub_le r)).2
  have hq := (abs_le.mp (Num.abs_toRat_conv_sub_le q)).1
  linarith

/-- Settles O25: neighbouring quotients stay in order, and the two end patterns are computed. -/
theorem conversionIsStrictlyIncreasing : Obligations.ConversionIsStrictlyIncreasing :=
  ⟨fun _ _ => Num.toRat_conv_lt, by decide, by decide⟩

end Sys2Proof.Machine

/-! PROOFS. The values of NUM_EXACT32 are closed under its rounding (R12, D5): the fields of a finite
pattern are the shift and the significand that the rounding of the pattern's own value chooses, so every
finite pattern but negative zero is given back. -/

namespace Sys2Proof.Machine.Num

/-- Every pattern is `2 ^ 23 * sh + m` for the shift and the significand of its value. -/
theorem exists_shift_significand (x : F32) :
    ∃ sh m, x.toNat % 2 ^ 31 = 2 ^ 23 * sh + m ∧ m < 2 ^ 24 ∧ (0 < sh → 2 ^ 23 ≤ m) ∧
      mag x = m * 2 ^ sh := by
  obtain ⟨sh, m, hx, hm, hsh⟩ :
      ∃ sh m, x.toNat % 2 ^ 31 = 2 ^ 23 * sh + m ∧ m < 2 ^ 24 ∧ (0 < sh → 2 ^ 23 ≤ m) :=
    ⟨expo x - 1, x.toNat % 2 ^ 31 - 2 ^ 23 * (expo x - 1), by rw [expo_eq]; omega,
      by rw [expo_eq]; omega, by rw [expo_eq]; omega⟩
  exact ⟨sh, m, hx, hm, hsh, mag_of_pattern hx hm.le hsh⟩

theorem shift_exact {d m sh : Nat} (hd : 0 < d) (hm : m < 2 ^ 24) (hsh : 0 < sh → 2 ^ 23 ≤ m) :
    shift (m * 2 ^ sh * d) d = sh := by
  apply le_antisymm
  · apply shift_le
    calc m * 2 ^ sh * d < 2 ^ 24 * 2 ^ sh * d := by gcongr
      _ = d * 2 ^ (24 + sh) := by ring
  · by_contra! hlt
    have hpow : 2 ^ (shift (m * 2 ^ sh * d) d + 1) ≤ 2 ^ sh := Nat.pow_le_pow_right (by omega) hlt
    refine (lt_two_pow_shift (n := m * 2 ^ sh * d) hd).not_ge ?_
    calc 2 ^ 24 * (d * 2 ^ shift (m * 2 ^ sh * d) d)
        = 2 ^ 23 * 2 ^ (shift (m * 2 ^ sh * d) d + 1) * d := by ring
      _ ≤ m * 2 ^ sh * d := by gcongr; exact hsh (by omega)

theorem significand_exact {d m sh : Nat} (hd : 0 < d) (hm : m < 2 ^ 24)
    (hsh : 0 < sh → 2 ^ 23 ≤ m) : significand (m * 2 ^ sh * d) d = m := by
  have hassoc : m * 2 ^ sh * d = m * (d * 2 ^ sh) := by ring
  rw [significand, shift_exact hd hm hsh, hassoc, rneDiv_exact m (by positivity)]

/-- The magnitude of a finite pattern rounds to the pattern without its sign. -/
theorem rneMag_mag {x : F32} (hx : expo x ≠ 255) {d : Nat} (hd : 0 < d) :
    rneMag (mag x * d) d = x.toNat % 2 ^ 31 := by
  obtain ⟨sh, m, hbits, hm, hsh, hmag⟩ := exists_shift_significand x
  rw [hmag, rneMag_eq_min, shift_exact hd hm hsh, significand_exact hd hm hsh, ← hbits]
  rw [expo_eq] at hx
  omega

theorem natAbs_scaled (x : F32) : (scaled x).natAbs = mag x := by
  unfold scaled; split_ifs <;> omega

theorem mod_ne_zero_of_msb {x : F32} (hx : x ≠ 0x80000000) (hsign : x.msb = true) :
    x.toNat % 2 ^ 31 ≠ 0 := by
  have hne : x.toNat ≠ 2 ^ 31 := fun h => hx (BitVec.eq_of_toNat_eq h)
  have hge := BitVec.msb_eq_true_iff_two_mul_ge.mp hsign
  omega

/-- A value is negative where the sign is set, but for negative zero. -/
theorem scaled_neg_iff {x : F32} (hx : x ≠ 0x80000000) : scaled x < 0 ↔ x.msb = true := by
  unfold scaled
  split_ifs with hsign
  · obtain ⟨sh, m, hbits, -, hsh, hmag⟩ := exists_shift_significand x
    have hm : 0 < m := by have := mod_ne_zero_of_msb hx hsign; omega
    have hpos : 0 < mag x := by rw [hmag]; positivity
    simpa [hsign] using hpos
  · simp [hsign]

theorem eq_of_msb_eq_of_mod_eq {x y : F32} (hsign : x.msb = y.msb)
    (hmod : x.toNat % 2 ^ 31 = y.toNat % 2 ^ 31) : x = y := by
  rw [BitVec.msb_eq_decide, BitVec.msb_eq_decide, decide_eq_decide] at hsign
  exact BitVec.eq_of_toNat_eq (by omega)

/-- Rounding the value of a finite pattern, as any fraction, gives the pattern back. -/
theorem rne32_scaled {x : F32} (hfin : expo x ≠ 255) (hx : x ≠ 0x80000000) {k : Nat} (hk : 0 < k) :
    rne32 (k * scaled x) (k * 2 ^ 149) = x := by
  have hmag : rneMag (2 ^ 149 * (k * scaled x).natAbs) (k * 2 ^ 149) = x.toNat % 2 ^ 31 := by
    rw [← rneMag_mag hfin (show 0 < k * 2 ^ 149 by positivity), Int.natAbs_mul, natAbs_scaled,
      Int.natAbs_natCast]
    congr 1; ring
  apply eq_of_msb_eq_of_mod_eq
  · have hneg : (k : ℤ) * scaled x < 0 ↔ x.msb = true :=
      (smul_neg_iff_of_pos_left (by exact_mod_cast hk)).trans (scaled_neg_iff hx)
    have hbits : x.msb = true → x.toNat % 2 ^ 31 ≠ 0 := mod_ne_zero_of_msb hx
    simp only [rne32_msb, hmag, hneg, and_iff_left_of_imp hbits, Bool.decide_eq_true]
  · rw [rne32_mod, hmag]

/-- Settles O30: `124 * d + d` is `125 * d`, and rounding `125 * d / 125` gives `d` back. -/
theorem recurrenceFixesAConstant : Obligations.RecurrenceFixesAConstant := by
  intro d hfin hd
  have hsum : 124 * scaled d + scaled d = (125 : ℕ) * scaled d := by push_cast; ring
  rw [ema, hsum]
  exact rne32_scaled hfin hd (by decide)

end Sys2Proof.Machine.Num

/-! PROOFS. The distance filter (42_filter.md): the gate as a comparison of values, the two arms, and
the filter after an error sentinel. -/

namespace Sys2Proof.Machine

/-! ### The gate and the arms of FILTER (R170 to R173) -/

theorem ChannelState.gate_iff_toRat (c : ChannelState) :
    c.gate = true ↔ 50 ≤ Num.toRat c.distanceMm := Num.geGate_iff_toRat _

theorem ChannelState.filter_of_gate {c : ChannelState} (h : c.gate = true) : c.filter = c :=
  if_pos h

theorem ChannelState.filter_of_not_gate {c : ChannelState} (h : c.gate = false) :
    c.filter = c.filterUpd := if_neg (Bool.eq_false_iff.mp h)

/-- Settles O27: at or above 50 both leave the channel as it is. -/
theorem outOfRangeIsHeld : Obligations.OutOfRangeIsHeld := by
  intro s ch c hc hdist
  have hgate : c.gate = true := c.gate_iff_toRat.mpr hdist
  exact ⟨congrArg Host.Outcome.next (State.onChannel_of_fixed hc (if_pos hgate)),
    congrArg Host.Outcome.next (State.onChannel_of_fixed hc (ChannelState.filter_of_gate hgate))⟩

/-- Settles O28: below 50 the row's guard is met. -/
theorem inRangeIsFiltered : Obligations.InRangeIsFiltered := by
  intro s ch c hc hdist
  have hgate : ¬ c.gate = true := c.gate_iff_toRat.not.mpr hdist.not_ge
  exact next_onChannel_of_some hc (if_neg hgate)

/-- Settles O29: FILTER is the choice between the arms, and the gate compares values. -/
theorem filterTakesTheArmOfItsGate : Obligations.FilterTakesTheArmOfItsGate := fun _ _ _ hc =>
  ⟨next_onChannel_of_some hc rfl, Num.geGate_iff_toRat _⟩

/-! ### The conversion and the filter in two passes of PROCESS (R196, R197) -/

theorem exec_process_of_checkNewPacket {s : State} (h : s.schedState = .checkNewPacket) :
    exec .process s = .next s.stepCheckNewPacket := by
  simp only [exec, execProcess, State.process, h]

theorem exec_process_of_filterPacket {s : State} (h : s.schedState = .filterPacket) :
    exec .process s = .next s.stepFilterPacket := by
  simp only [exec, execProcess, State.process, h]

theorem execAll_process_process {s : State} (h : s.schedState = .checkNewPacket) :
    execAll [.process, .process] s = .next s.stepCheckNewPacket.stepFilterPacket :=
  (execAll_pair (exec_process_of_checkNewPacket h)).trans (exec_process_of_filterPacket rfl)

theorem getElem?_stepCheckNewPacket_stepFilterPacket {s : State} {ch : Nat} {c : ChannelState}
    (hc : s.channels[ch]? = some c) :
    s.stepCheckNewPacket.stepFilterPacket.channels[ch]? =
      some (c.checkPacket s.params).filterPacket := by
  simp [State.stepFilterPacket_eq, State.stepCheckNewPacket_eq, hc]

/-! ### The filter after an error sentinel (R175) -/

theorem ChannelState.checkPacket_of_sentinel {p : Params} {c : ChannelState}
    (hready : c.newPacketReady = true) (hraw : c.rawOperand p = Config.errSentinel) :
    c.checkPacket p = (c.flagSentinel p).handToFilter := by
  unfold ChannelState.checkPacket ChannelState.convert
  rw [if_pos hready, if_pos hraw]

theorem ChannelState.filterPacket_of_not_gate {c : ChannelState} (hpending : c.pendingFilter = true)
    (hgate : c.gate = false) : c.filterPacket = c.filterUpd.clearPendingFilter := by
  unfold ChannelState.filterPacket
  rw [if_pos hpending, ChannelState.filter_of_not_gate hgate]

/-- Settles O44: flagging the sentinel and handing the sample over leave the distance, and with it the
gate, as they were. -/
theorem filterRunsOnTheStaleDistance : Obligations.FilterRunsOnTheStaleDistance := by
  intro s ch c _ hsched hc hready hraw hgate
  have hgate' : (c.flagSentinel s.params).handToFilter.gate = false := hgate
  have hct := getElem?_stepCheckNewPacket_stepFilterPacket hc
  rw [ChannelState.checkPacket_of_sentinel hready hraw,
    ChannelState.filterPacket_of_not_gate rfl hgate'] at hct
  exact ⟨_, _, execAll_process_process hsched, hct, rfl, rfl, rfl, rfl, rfl⟩

end Sys2Proof.Machine

/-! PROOFS. The Subsystem Scheduler (43_scheduler.md), step by step: each step as one update of the
state, and the row of format S that is selected runs its step. -/

namespace Sys2Proof.Machine

/-! ### The burst of polls (R195, R74) -/

/-- The state after `n` burst iterations of polls (R195). -/
def State.swept (n : Nat) (s : State) : State :=
  { s with
    channels := s.channels.mapIdx fun ch c => c.takeAnswers s.params ((s.rxLine ch).take n)
    rx := s.rx.mapIdx fun ch l => if ch < s.nCh then l.drop n else l
    calls := s.calls ++ (List.range n).flatMap fun k =>
      (List.range s.nCh).flatMap fun ch => pollCalls ch ((s.rxLine ch).getD k none) }

@[simp] theorem State.swept_nCh (n : Nat) (s : State) : (s.swept n).nCh = s.nCh :=
  List.length_mapIdx

@[simp] theorem State.swept_params (n : Nat) (s : State) : (s.swept n).params = s.params := rfl

theorem State.swept_rxLine (n : Nat) (s : State) (ch : Nat) :
    (s.swept n).rxLine ch = if ch < s.nCh then (s.rxLine ch).drop n else s.rxLine ch := by
  simp only [State.swept, State.rxLine, List.getD_eq_getElem?_getD, List.getElem?_mapIdx]
  cases s.rx[ch]? <;> simp

theorem State.swept_pollAnswer {n : Nat} {s : State} {ch : Nat} (h : ch < s.nCh) :
    (s.swept n).pollAnswer ch = (s.rxLine ch).getD n none := by
  rw [State.pollAnswer, State.swept_rxLine, if_pos h]
  simp [List.headD_eq_head?_getD, List.head?_drop]

theorem State.swept_channels_getElem? (n : Nat) (s : State) (ch : Nat) :
    (s.swept n).channels[ch]? =
      s.channels[ch]?.map fun c => c.takeAnswers s.params ((s.rxLine ch).take n) :=
  List.getElem?_mapIdx

/-- Past the end of the answers there is no data, which leaves the channel as it is. -/
theorem ChannelState.takeAnswers_take_succ (p : Params) (l : List (Option Byte)) (n : Nat)
    (c : ChannelState) :
    c.takeAnswers p (l.take (n + 1)) = (c.takeAnswers p (l.take n)).takeAnswer p (l.getD n none) := by
  rw [List.take_add_one, ChannelState.takeAnswers, List.foldl_append, List.getD_eq_getElem?_getD]
  cases l[n]? <;> rfl

/-- One more iteration: each channel takes the next of its answers. -/
theorem State.forChannels_pollChannel_swept (n : Nat) (s : State) :
    (s.swept n).forChannels State.pollChannel = s.swept (n + 1) := by
  have hchannels : ((s.swept n).channels.mapIdx fun ch c =>
      c.takeAnswer s.params ((s.swept n).pollAnswer ch)) = (s.swept (n + 1)).channels := by
    refine List.ext_getElem? fun ch => ?_
    rw [List.getElem?_mapIdx, State.swept_channels_getElem?, State.swept_channels_getElem?]
    cases hc : s.channels[ch]? with
    | none => rfl
    | some c =>
      have hch : ch < s.nCh := (List.getElem?_eq_some_iff.mp hc).1
      simp [State.swept_pollAnswer hch, ChannelState.takeAnswers_take_succ]
  have hrx : ((s.swept n).rx.mapIdx fun ch l => if ch < s.nCh then l.tail else l) =
      (s.swept (n + 1)).rx := by
    simp only [State.swept, List.mapIdx_mapIdx]
    congr 1
    funext ch l
    by_cases hch : ch < s.nCh <;> simp [hch]
  have hcalls : (s.swept n).calls ++ (List.range s.nCh).flatMap
      (fun ch => pollCalls ch ((s.swept n).pollAnswer ch)) = (s.swept (n + 1)).calls := by
    have hlast : (List.range s.nCh).flatMap (fun ch => pollCalls ch ((s.swept n).pollAnswer ch)) =
        (List.range s.nCh).flatMap fun ch => pollCalls ch ((s.rxLine ch).getD n none) :=
      List.flatMap_congr fun ch hch => by rw [State.swept_pollAnswer (List.mem_range.mp hch)]
    rw [hlast]
    simp [State.swept, List.range_succ]
  rw [State.sweep_eq, State.swept_nCh, State.swept_params, hchannels, hrx, hcalls]
  rfl

theorem State.swept_zero (s : State) : s.swept 0 = s := by
  have hid {α : Type} (l : List α) : (l.mapIdx fun _ a => a) = l := by
    simp [List.mapIdx_eq_zipIdx_map]
  simp [State.swept, ChannelState.takeAnswers, hid]

theorem State.foldl_forChannels_pollChannel (n : Nat) (s : State) :
    (List.range n).foldl (fun t _ => t.forChannels State.pollChannel) s = s.swept n := by
  induction n with
  | zero => exact s.swept_zero.symm
  | succ n ih =>
    rw [List.range_succ, List.foldl_append, ih]
    exact State.forChannels_pollChannel_swept n s

/-! ### The steps, each as one update -/

theorem State.stepCheckNewData_eq (s : State) :
    s.stepCheckNewData = (s.swept 3).setSched .checkNewPacket :=
  congrArg (State.setSched _) (State.foldl_forChannels_pollChannel Config.burst s)

theorem State.stepWaitLaserReset_eq (s : State) :
    s.stepWaitLaserReset =
      s.setSched (if 51 ≤ s.debounceCounter then .initLaser else s.schedState) := by
  unfold State.stepWaitLaserReset
  exact (apply_ite (fun st => s.setSched st) (50 < s.debounceCounter) _ _).symm

theorem State.stepWaitInitDone_eq (s : State) :
    s.stepWaitInitDone =
      s.askInitDone.setSched (if s.initDoneAnswer = true then .checkNewData else s.schedState) := by
  unfold State.stepWaitInitDone
  exact (apply_ite (fun st => s.askInitDone.setSched st) (s.initDoneAnswer = true) _ _).symm

/-! ### The rows of format S (R190, R99) -/

/-- The action and the transition of a scheduler state (R190). -/
def State.schedStep : SchedState → State → State
  | .reset => State.stepReset
  | .waitLaserReset => State.stepWaitLaserReset
  | .initLaser => State.stepInitLaser
  | .waitInitDone => State.stepWaitInitDone
  | .checkNewData => State.stepCheckNewData
  | .checkNewPacket => State.stepCheckNewPacket
  | .filterPacket => State.stepFilterPacket

theorem exec_schedRow (st : SchedState) (s : State) :
    exec (schedRow st) s = .next (s.whenSched st (State.schedStep st)) := by
  cases st <;> rfl

theorem exec_schedRow_of_eq {s : State} {st : SchedState} (h : s.schedState = st) :
    exec (schedRow st) s = .next (State.schedStep st s) :=
  (exec_schedRow st s).trans (congrArg _ (if_pos h))

/-- Settles O31: the row is selected. -/
theorem resetStepZeroesTheCounter : Obligations.ResetStepZeroesTheCounter := fun _ h =>
  exec_schedRow_of_eq h

/-- Settles O32: past 50 is from 51 up. -/
theorem waitLaserResetNeedsMoreThanFifty : Obligations.WaitLaserResetNeedsMoreThanFifty := by
  intro s h
  rw [← h]
  exact (exec_schedRow_of_eq h).trans (congrArg _ s.stepWaitLaserReset_eq)

/-- Settles O33: the loop over the channels logs one command each, and those are the events of the
transmit history. -/
theorem initLaserSendsTheCommand : Obligations.InitLaserSendsTheCommand := by
  intro s h
  refine ⟨_, (exec_schedRow_of_eq h).trans (congrArg _ s.stepInitLaser_eq), rfl, ?_⟩
  rw [State.txHistory, State.setSched_calls, List.filterMap_append, List.filterMap_map]
  exact congrArg _ (congrFun List.filterMap_eq_map _)

/-- Settles O34: the check is asked once, and its answer is the first listed or the parameter. -/
theorem waitInitDoneAsksTheCheck : Obligations.WaitInitDoneAsksTheCheck := by
  intro s h
  have hstep := (exec_schedRow_of_eq h).trans (congrArg Host.Outcome.next s.stepWaitInitDone_eq)
  refine ⟨h ▸ hstep, fun hnil hrest => ⟨_, hstep, ?_⟩⟩
  have hanswer : s.initDoneAnswer = true := (State.initDoneAnswer_of_nil hnil).trans hrest
  exact if_pos hanswer

/-- Settles O35: three burst iterations, each of which takes one answer of every channel. -/
theorem checkNewDataDrainsThreePerChannel : Obligations.CheckNewDataDrainsThreePerChannel :=
  fun s h => (exec_schedRow_of_eq h).trans (congrArg _ s.stepCheckNewData_eq)

/-- Settles O36: the loop over the channels is a map. -/
theorem checkNewPacketConvertsReadyChannels : Obligations.CheckNewPacketConvertsReadyChannels :=
  fun s h => (exec_schedRow_of_eq h).trans (congrArg _ s.stepCheckNewPacket_eq)

/-- Settles O37: the loop over the channels is a map. -/
theorem filterPacketFiltersPendingChannels : Obligations.FilterPacketFiltersPendingChannels :=
  fun s h => (exec_schedRow_of_eq h).trans (congrArg _ s.stepFilterPacket_eq)

end Sys2Proof.Machine

/-! PROOFS. PROCESS (R190, R201): the step of the scheduler state or the three data steps, the
successors of the scheduler states (R198), and the debounce (R199). -/

namespace Sys2Proof.Machine

/-! ### PROCESS as a step -/

/-- The three data steps one after the other (R201). -/
def State.dataSteps (s : State) : State := s.stepCheckNewData.stepCheckNewPacket.stepFilterPacket

/-- Only a fused PROCESS in CheckNewData is more than the one step (R190, R201). -/
theorem State.process_eq (s : State) :
    s.process =
      if s.schedState = .checkNewData ∧ s.params.passMode = .fused then s.dataSteps
      else State.schedStep s.schedState s := by
  unfold State.process
  cases hst : s.schedState with
  | checkNewData =>
    unfold State.processCheckNewData
    cases s.params.passMode <;> rfl
  | _ => rfl

theorem State.process_eq_schedStep {s : State}
    (h : s.schedState = .checkNewData → s.params.passMode = .oneState) :
    s.process = State.schedStep s.schedState s := by
  rw [State.process_eq, if_neg]
  rintro ⟨hst, hfused⟩
  cases (h hst).symm.trans hfused

theorem State.process_eq_dataSteps {s : State} (hst : s.schedState = .checkNewData)
    (hmode : s.params.passMode = .fused) : s.process = s.dataSteps :=
  s.process_eq.trans (if_pos ⟨hst, hmode⟩)

theorem exec_process_eq_exec_schedRow {s : State}
    (h : s.schedState = .checkNewData → s.params.passMode = .oneState) :
    ∃ t, exec .process s = .next t ∧ exec (schedRow s.schedState) s = .next t :=
  ⟨_, congrArg Host.Outcome.next (State.process_eq_schedStep h), exec_schedRow_of_eq rfl⟩

/-- Settles O38: under one_state PROCESS is the step of the scheduler state, and its row is selected. -/
theorem processRunsTheSelectedStep : Obligations.ProcessRunsTheSelectedStep := fun _ hmode =>
  exec_process_eq_exec_schedRow fun _ => hmode

theorem execAll_cons {i : Instr} {is : List Instr} {s t : State} (h : exec i s = .next t) :
    execAll (i :: is) s = execAll is t := by
  simp only [execAll, h]

/-- Each data step leads to the state in which the next row is selected. -/
theorem execAll_dataRows {s : State} (h : s.schedState = .checkNewData) :
    execAll [.sCheckNewData, .sCheckNewPacket, .sFilterPacket] s = .next s.dataSteps := by
  have hdata := exec_schedRow_of_eq h
  have hpacket := exec_schedRow_of_eq (s := s.stepCheckNewData) (st := .checkNewPacket) rfl
  have hfilter := exec_schedRow_of_eq (s := s.stepCheckNewData.stepCheckNewPacket)
    (st := .filterPacket) rfl
  exact (execAll_cons hdata).trans ((execAll_cons hpacket).trans (execAll_cons hfilter))

/-- Settles O39: in CheckNewData both are the three data steps, elsewhere both are the one step. -/
theorem fusedPassRunsTheThreeDataSteps : Obligations.FusedPassRunsTheThreeDataSteps :=
  fun _ hmode =>
    ⟨fun hst => ⟨_, congrArg Host.Outcome.next (State.process_eq_dataSteps hst hmode), rfl,
        execAll_dataRows hst⟩,
      fun hst => exec_process_eq_exec_schedRow fun h => absurd h hst⟩

/-! ### The successors (R198) -/

theorem State.schedStep_schedState_ne_reset {s : State} {st : SchedState} (h : s.schedState = st) :
    (State.schedStep st s).schedState ≠ .reset := by
  cases st with
  | waitLaserReset =>
    simp only [State.schedStep, State.stepWaitLaserReset_eq, State.setSched_schedState, h]
    split <;> decide
  | waitInitDone =>
    simp only [State.schedStep, State.stepWaitInitDone_eq, State.setSched_schedState, h]
    split <;> decide
  | _ => exact SchedState.noConfusion

theorem State.process_schedState_ne_reset (s : State) : s.process.schedState ≠ .reset := by
  rw [State.process_eq]
  split
  · exact SchedState.noConfusion
  · exact State.schedStep_schedState_ne_reset rfl

/-- A row of format S leaves the scheduler where it is or leads to another state than Reset. -/
theorem exec_schedRow_schedState {st : SchedState} {s t : State}
    (h : exec (schedRow st) s = .next t) :
    t.schedState = s.schedState ∨ t.schedState ≠ .reset := by
  by_cases hst : s.schedState = st
  · obtain rfl := Host.Outcome.next.inj ((exec_schedRow_of_eq hst).symm.trans h)
    exact .inr (State.schedStep_schedState_ne_reset hst)
  · obtain rfl := Host.Outcome.next.inj ((exec_schedRow_of_ne hst).symm.trans h)
    exact .inl rfl

/-- Every instruction but INIT leaves the scheduler where it is or leads to another state than
Reset. -/
theorem exec_schedState {i : Instr} {s t : State} (hi : i ≠ .init) (h : exec i s = .next t) :
    t.schedState = s.schedState ∨ t.schedState ≠ .reset := by
  cases i with
  | init => exact absurd rfl hi
  | sReset => exact exec_schedRow_schedState (st := .reset) h
  | sWaitLaserReset => exact exec_schedRow_schedState (st := .waitLaserReset) h
  | sInitLaser => exact exec_schedRow_schedState (st := .initLaser) h
  | sWaitInitDone => exact exec_schedRow_schedState (st := .waitInitDone) h
  | sCheckNewData => exact exec_schedRow_schedState (st := .checkNewData) h
  | sCheckNewPacket => exact exec_schedRow_schedState (st := .checkNewPacket) h
  | sFilterPacket => exact exec_schedRow_schedState (st := .filterPacket) h
  | process =>
    obtain rfl := Host.Outcome.next.inj h
    exact .inr s.process_schedState_ne_reset
  | tick =>
    obtain rfl := Host.Outcome.next.inj h
    exact .inl rfl
  | getDist ch =>
    obtain ⟨r, n, rfl⟩ := exec_getter (.inl rfl) h
    exact .inl rfl
  | getErr ch =>
    obtain ⟨r, n, rfl⟩ := exec_getter (.inr rfl) h
    exact .inl rfl
  | _ => -- the operations and rows that act on one channel
    obtain rfl := Host.Outcome.next.inj h
    exact .inl (State.onChannel_schedState s _ _)

/-- Settles O40: the step of each state has the table's successor, and only INIT enters Reset. -/
theorem schedulerSuccessors : Obligations.SchedulerSuccessors := by
  refine ⟨fun s hmode => ⟨_, rfl, ?_⟩, fun i s t hi h hreset => ?_⟩
  · rw [State.process_eq_schedStep fun _ => hmode]
    cases hst : s.schedState with
    | waitLaserReset =>
      have hlate : 51 ≤ s.debounceCounter ↔ ¬ s.debounceCounter ≤ 50 := by omega
      simp only [State.schedStep, State.stepWaitLaserReset_eq, State.setSched_schedState, hst,
        hlate, ite_not]
    | waitInitDone =>
      simp only [State.schedStep, State.stepWaitInitDone_eq, State.setSched_schedState, hst]
      rfl
    | _ => rfl
  · obtain hsame | hne := exec_schedState hi h
    · exact hsame.symm.trans hreset
    · exact absurd hreset hne

/-! ### The debounce (R199) -/

theorem satInc_eq_min {w v : Nat} (h : v ≤ 2 ^ w - 1) : satInc w v = min (v + 1) (2 ^ w - 1) := by
  unfold satInc; split <;> omega

theorem execAll_append {is js : List Instr} {s t : State} (h : execAll is s = .next t) :
    execAll (is ++ js) s = execAll js t := by
  induction is generalizing s with
  | nil => obtain rfl := Host.Outcome.next.inj h; rfl
  | cons i is ih =>
    cases hi : exec i s with
    | next u =>
      rw [execAll_cons hi] at h
      rw [List.cons_append, execAll_cons hi, ih h]
    | fault r => simp [execAll, hi] at h
    | refused r => simp [execAll, hi] at h

/-- `n` TICKs in a row: the count goes up by `n`, to the largest value of its width at most. -/
theorem execAll_replicate_tick {s : State} (h : s.debounceCounter ≤ 2 ^ s.params.debW - 1)
    (n : Nat) :
    execAll (List.replicate n .tick) s =
      .next (s.setDebounce (min (s.debounceCounter + n) (2 ^ s.params.debW - 1))) := by
  induction n generalizing s with
  | zero => rw [Nat.add_zero, min_eq_left h]; rfl
  | succ n ih =>
    have htick : exec .tick s =
      .next (s.setDebounce (satInc s.params.debW s.debounceCounter)) := rfl
    have hcount : min (satInc s.params.debW s.debounceCounter + n) (2 ^ s.params.debW - 1) =
        min (s.debounceCounter + (n + 1)) (2 ^ s.params.debW - 1) := by
      rw [satInc_eq_min h]; omega
    rw [List.replicate_succ, execAll_cons htick, ih (satInc_le_max h)]
    exact congrArg (fun k => Host.Outcome.next (s.setDebounce k)) hcount

/-- Settles O41: from zero the count reaches 51 exactly with the 51st TICK, since 51 is within its
width. -/
theorem debounceTakesFiftyOneTicks : Obligations.DebounceTakesFiftyOneTicks := by
  intro s n hst hw
  have hreset : exec .process s = .next s.stepReset :=
    congrArg Host.Outcome.next (by simp only [State.process, hst])
  have hticks := execAll_replicate_tick (s := s.stepReset) (Nat.zero_le _) n
  generalize hcount : min (s.stepReset.debounceCounter + n) (2 ^ s.stepReset.params.debW - 1) = k
    at hticks
  have hlast : exec .process (s.stepReset.setDebounce k) =
    .next (s.stepReset.setDebounce k).stepWaitLaserReset := rfl
  refine ⟨_, (execAll_cons hreset).trans ((execAll_append hticks).trans (execAll_cons hlast)), ?_⟩
  have hwide : 2 ^ 6 ≤ 2 ^ s.params.debW := Nat.pow_le_pow_right (by decide) hw
  have hiff : 51 ≤ k ↔ 51 ≤ n := by
    have hk : min (0 + n) (2 ^ s.params.debW - 1) = k := hcount
    omega
  rw [State.stepWaitLaserReset_eq]
  exact if_congr hiff rfl rfl

end Sys2Proof.Machine

/-! PROOFS. Lanes do not interact (R202, R74, R242): every operation the meanings are written with takes
two states that agree on a lane to two states that agree on it, and so does every instruction. -/

namespace Sys2Proof.Machine

/-! ### Updates of two states that agree on a lane -/

section
variable {k : Nat} {s s' : State}

theorem SameLane.params_eq (h : SameLane k s s') : s.params = s'.params := by
  obtain ⟨-, -, -, -, -, hparams, -⟩ := h
  exact hparams

theorem SameLane.schedState_eq (h : SameLane k s s') : s.schedState = s'.schedState := by
  obtain ⟨-, -, -, hsched, -⟩ := h
  exact hsched

theorem SameLane.debounceCounter_eq (h : SameLane k s s') :
    s.debounceCounter = s'.debounceCounter := by
  obtain ⟨-, -, -, -, hdeb, -⟩ := h
  exact hdeb

theorem SameLane.initDoneAnswers_eq (h : SameLane k s s') :
    s.initDoneAnswers = s'.initDoneAnswers := by
  obtain ⟨-, -, -, -, -, -, hanswers⟩ := h
  exact hanswers

theorem SameLane.setSched (h : SameLane k s s') {st st' : SchedState} (hst : st = st') :
    SameLane k (s.setSched st) (s'.setSched st') := by
  obtain ⟨hn, hlane, hrx, -, hrest⟩ := h
  exact ⟨hn, hlane, hrx, hst, hrest⟩

theorem SameLane.setDebounce (h : SameLane k s s') {n n' : Nat} (hnn : n = n') :
    SameLane k (s.setDebounce n) (s'.setDebounce n') := by
  obtain ⟨hn, hlane, hrx, hsched, -, hrest⟩ := h
  exact ⟨hn, hlane, hrx, hsched, hnn, hrest⟩

/-- What becomes of a channel depends on the channel and on the parameters (R202). -/
theorem SameLane.mapChannels (h : SameLane k s s') {f f' : ChannelState → ChannelState}
    (hf : f = f') :
    SameLane k (s.setChannels (s.channels.map f)) (s'.setChannels (s'.channels.map f')) := by
  obtain ⟨hn, hlane, hrest⟩ := h
  refine ⟨?_, ?_, hrest⟩
  · simpa [State.nCh] using hn
  · simp only [State.setChannels_channels, List.getElem?_map, hlane, hf]

/-- An operation on one channel writes lane `k` alike, or not at all. -/
theorem SameLane.onChannel (h : SameLane k s s') (ch : Nat) {f f' : ChannelState → ChannelState}
    (hf : f = f') : SameLane k (s.onChannel ch f) (s'.onChannel ch f') := by
  obtain ⟨hn, hlane, hrest⟩ := h
  rw [State.onChannel_eq, State.onChannel_eq]
  refine ⟨?_, ?_, hrest⟩
  · simpa [State.nCh] using hn
  · simp only [State.setChannels_channels, List.getElem?_modify, hlane, hf]

/-- Each channel takes its own answers (R195, R74). -/
theorem SameLane.swept (h : SameLane k s s') (n : Nat) : SameLane k (s.swept n) (s'.swept n) := by
  obtain ⟨hn, hlane, hrx, hsched, hdeb, hparams, hanswers⟩ := h
  refine ⟨?_, ?_, ?_, hsched, hdeb, hparams, hanswers⟩
  · rw [State.swept_nCh, State.swept_nCh, hn]
  · rw [State.swept_channels_getElem?, State.swept_channels_getElem?, hlane, hrx, hparams]
  · rw [State.swept_rxLine, State.swept_rxLine, hn, hrx]

/-! ### The steps of the scheduler -/

theorem SameLane.stepWaitLaserReset (h : SameLane k s s') :
    SameLane k s.stepWaitLaserReset s'.stepWaitLaserReset := by
  rw [State.stepWaitLaserReset_eq, State.stepWaitLaserReset_eq]
  exact h.setSched (by rw [h.debounceCounter_eq, h.schedState_eq])

theorem SameLane.stepInitLaser (h : SameLane k s s') :
    SameLane k s.stepInitLaser s'.stepInitLaser := by
  rw [State.stepInitLaser_eq, State.stepInitLaser_eq]
  exact SameLane.setSched (s := { s with calls := _ }) (s' := { s' with calls := _ }) h rfl

theorem SameLane.askInitDone (h : SameLane k s s') : SameLane k s.askInitDone s'.askInitDone := by
  obtain ⟨hn, hlane, hrx, hsched, hdeb, hparams, hanswers⟩ := h
  exact ⟨hn, hlane, hrx, hsched, hdeb, hparams, congrArg List.tail hanswers⟩

theorem SameLane.stepWaitInitDone (h : SameLane k s s') :
    SameLane k s.stepWaitInitDone s'.stepWaitInitDone := by
  have hanswer : s.initDoneAnswer = s'.initDoneAnswer := by
    rw [State.initDoneAnswer, State.initDoneAnswer, h.initDoneAnswers_eq, h.params_eq]
  rw [State.stepWaitInitDone_eq, State.stepWaitInitDone_eq]
  exact h.askInitDone.setSched (by rw [hanswer, h.schedState_eq])

theorem SameLane.stepCheckNewData (h : SameLane k s s') :
    SameLane k s.stepCheckNewData s'.stepCheckNewData := by
  rw [State.stepCheckNewData_eq, State.stepCheckNewData_eq]
  exact (h.swept 3).setSched rfl

theorem SameLane.stepCheckNewPacket (h : SameLane k s s') :
    SameLane k s.stepCheckNewPacket s'.stepCheckNewPacket := by
  rw [State.stepCheckNewPacket_eq, State.stepCheckNewPacket_eq]
  exact (h.mapChannels (by rw [h.params_eq])).setSched rfl

theorem SameLane.stepFilterPacket (h : SameLane k s s') :
    SameLane k s.stepFilterPacket s'.stepFilterPacket := by
  rw [State.stepFilterPacket_eq, State.stepFilterPacket_eq]
  exact (h.mapChannels rfl).setSched rfl

theorem SameLane.schedStep (h : SameLane k s s') (st : SchedState) :
    SameLane k (State.schedStep st s) (State.schedStep st s') := by
  cases st with
  | reset => exact (h.setDebounce rfl).setSched rfl
  | waitLaserReset => exact h.stepWaitLaserReset
  | initLaser => exact h.stepInitLaser
  | waitInitDone => exact h.stepWaitInitDone
  | checkNewData => exact h.stepCheckNewData
  | checkNewPacket => exact h.stepCheckNewPacket
  | filterPacket => exact h.stepFilterPacket

theorem SameLane.dataSteps (h : SameLane k s s') : SameLane k s.dataSteps s'.dataSteps :=
  h.stepCheckNewData.stepCheckNewPacket.stepFilterPacket

theorem SameLane.process (h : SameLane k s s') : SameLane k s.process s'.process := by
  rw [State.process_eq, State.process_eq, h.schedState_eq, h.params_eq]
  split
  · exact h.dataSteps
  · exact h.schedStep _

/-! ### The instructions -/

variable {t t' : State}

theorem SameLane.exec_schedRow (h : SameLane k s s') {st : SchedState}
    (ht : exec (schedRow st) s = .next t) (ht' : exec (schedRow st) s' = .next t') :
    SameLane k t t' := by
  by_cases hst : s.schedState = st
  · have hst' := h.schedState_eq.symm.trans hst
    obtain rfl := Host.Outcome.next.inj ((exec_schedRow_of_eq hst).symm.trans ht)
    obtain rfl := Host.Outcome.next.inj ((exec_schedRow_of_eq hst').symm.trans ht')
    exact h.schedStep st
  · have hst' : s'.schedState ≠ st := h.schedState_eq ▸ hst
    obtain rfl := Host.Outcome.next.inj ((exec_schedRow_of_ne hst).symm.trans ht)
    obtain rfl := Host.Outcome.next.inj ((exec_schedRow_of_ne hst').symm.trans ht')
    exact h

/-- INIT writes every channel alike. -/
theorem SameLane.exec_init (h : SameLane k s s') (ht : exec .init s = .next t)
    (ht' : exec .init s' = .next t') : SameLane k t t' := by
  rw [exec_init_eq] at ht ht'
  obtain rfl := Host.Outcome.next.inj ht
  obtain rfl := Host.Outcome.next.inj ht'
  obtain ⟨hn, -, hrx, -, -, hparams, hanswers⟩ := h
  have hreset : List.replicate s.nCh (ChannelState.reset s.params.faultInit) =
      List.replicate s'.nCh (ChannelState.reset s'.params.faultInit) := by rw [hn, hparams]
  exact ⟨congrArg List.length hreset, congrArg (·[k]?) hreset, hrx, rfl, rfl, hparams, hanswers⟩

/-- A getter writes no part of a lane. -/
theorem SameLane.exec_getter {i : Instr} {ch : Nat} (h : SameLane k s s')
    (hi : i = .getDist ch ∨ i = .getErr ch) (ht : exec i s = .next t)
    (ht' : exec i s' = .next t') : SameLane k t t' := by
  obtain ⟨r, n, rfl⟩ := Machine.exec_getter hi ht
  obtain ⟨r', n', rfl⟩ := Machine.exec_getter hi ht'
  exact h

end

/-- Settles O59: a scheduler step is a loop over the channels that treats each by itself, and any other
instruction acts on one channel or on what all lanes share. -/
theorem channelsDoNotInteract : Obligations.ChannelsDoNotInteract := by
  intro i k s s' t t' h ht ht'
  cases i with
  | init => exact h.exec_init ht ht'
  | tick =>
    obtain rfl := Host.Outcome.next.inj ht
    obtain rfl := Host.Outcome.next.inj ht'
    exact h.setDebounce (by rw [h.params_eq, h.debounceCounter_eq])
  | process =>
    obtain rfl := Host.Outcome.next.inj ht
    obtain rfl := Host.Outcome.next.inj ht'
    exact h.process
  | sReset => exact h.exec_schedRow (st := .reset) ht ht'
  | sWaitLaserReset => exact h.exec_schedRow (st := .waitLaserReset) ht ht'
  | sInitLaser => exact h.exec_schedRow (st := .initLaser) ht ht'
  | sWaitInitDone => exact h.exec_schedRow (st := .waitInitDone) ht ht'
  | sCheckNewData => exact h.exec_schedRow (st := .checkNewData) ht ht'
  | sCheckNewPacket => exact h.exec_schedRow (st := .checkNewPacket) ht ht'
  | sFilterPacket => exact h.exec_schedRow (st := .filterPacket) ht ht'
  | getDist ch => exact h.exec_getter (.inl rfl) ht ht'
  | getErr ch => exact h.exec_getter (.inr rfl) ht ht'
  | _ => -- the operations and rows that act on one channel
    obtain rfl := Host.Outcome.next.inj ht
    obtain rfl := Host.Outcome.next.inj ht'
    exact h.onChannel _ (by simp only [h.params_eq])

end Sys2Proof.Machine

/-! PROOFS. A sample in three passes of PROCESS (R200): the three bytes are read and assembled, the
value is converted and handed over, the filter runs on it. -/

namespace Sys2Proof.Machine

/-- The answers of the byte source that carry one value (R94). -/
def sampleAnswers (r : BitVec 16) : List (Option Byte) :=
  [some (encSample r).1, some (encSample r).2.1, some (encSample r).2.2]

/-- The three bytes of a value fed to an aligned channel complete a sample of that value, under either
RAW_LATCH (R133(a), R155). -/
theorem ChannelState.takeAnswers_sampleAnswers {c : ChannelState}
    (hrx : c.rxState = .awaitingByte1) (p : Params) (r : BitVec 16) :
    (c.takeAnswers p (sampleAnswers r)).newPacketReady = true ∧
      (c.takeAnswers p (sampleAnswers r)).rawOperand p = r := by
  obtain ⟨hi, f0, rfl⟩ := exists_append (m := 10) (n := 6) r
  obtain ⟨f2, f1, rfl⟩ := exists_append (m := 4) (n := 6) hi
  have hlow : (f2.setWidth 6).setWidth 4 = f2 := by
    rw [BitVec.setWidth_setWidth_of_le _ (by decide), BitVec.setWidth_eq]
  rw [sampleAnswers, encSample_append]
  simp only [ChannelState.takeAnswers, List.foldl, ChannelState.takeAnswer]
  rw [ChannelState.feed_t00 hrx, ChannelState.feed_t01 rfl, ChannelState.feed_t10 rfl, hlow,
    ChannelState.accept3_eq, ChannelState.rawOperand_eq,
    (assemblyIsTheConcatenation _ _ _).1]
  refine ⟨rfl, ?_⟩
  cases p.rawLatch <;> rfl

theorem ChannelState.checkPacket_of_value {p : Params} {c : ChannelState} {r : BitVec 16}
    (hready : c.newPacketReady = true) (hraw : c.rawOperand p = r) (hr : r ≠ Config.errSentinel) :
    c.checkPacket p = (c.convertOk r).handToFilter := by
  unfold ChannelState.checkPacket ChannelState.convert
  rw [if_pos hready, hraw, if_neg hr]

/-- The filter's request is done whether it held or updated (R197). -/
theorem ChannelState.filterPacket_of_pending {c : ChannelState} (h : c.pendingFilter = true) :
    c.filterPacket = c.filter.clearPendingFilter := if_pos h

/-- Three PROCESS from CheckNewData under one_state. -/
theorem execAll_three_process {s : State} (hmode : s.params.passMode = .oneState)
    (hst : s.schedState = .checkNewData) :
    execAll [.process, .process, .process] s = .next s.dataSteps := by
  have hdata : exec .process s = .next s.stepCheckNewData :=
    congrArg Host.Outcome.next ((State.process_eq_schedStep fun _ => hmode).trans (by rw [hst]; rfl))
  exact (execAll_cons hdata).trans (execAll_process_process rfl)

/-- What the three data steps make of a channel. -/
theorem getElem?_dataSteps {s : State} {ch : Nat} {c : ChannelState}
    (hc : s.channels[ch]? = some c) :
    s.dataSteps.channels[ch]? =
      some ((c.takeAnswers s.params ((s.rxLine ch).take 3)).checkPacket s.params).filterPacket := by
  have hdata : s.stepCheckNewData.channels[ch]? =
      some (c.takeAnswers s.params ((s.rxLine ch).take 3)) := by
    rw [State.stepCheckNewData_eq, State.setSched_channels, State.swept_channels_getElem?, hc]
    rfl
  have hparams : s.stepCheckNewData.params = s.params := by rw [State.stepCheckNewData_eq]; rfl
  have hlane := getElem?_stepCheckNewPacket_stepFilterPacket hdata
  rw [hparams] at hlane
  exact hlane

theorem rxLine_dataSteps {s : State} {ch : Nat} (h : ch < s.nCh) :
    s.dataSteps.rxLine ch = (s.rxLine ch).drop 3 := by
  have hdata : s.dataSteps.rxLine ch = s.stepCheckNewData.rxLine ch := by
    unfold State.dataSteps
    rw [State.stepFilterPacket_eq, State.stepCheckNewPacket_eq]
    rfl
  have hswept := State.swept_rxLine 3 s ch
  rw [if_pos h] at hswept
  rw [hdata, State.stepCheckNewData_eq]
  exact hswept

/-- Settles O43: the drain completes the sample, the conversion hands it over, and the gate of its
distance decides what the filter does. -/
theorem sampleIsFilteredInThreePasses : Obligations.SampleIsFilteredInThreePasses := by
  intro s ch c r rest hmode hst hc hrx hr hline
  have hch : ch < s.nCh := (List.getElem?_eq_some_iff.mp hc).1
  have htake : (s.rxLine ch).take 3 = sampleAnswers r := by rw [hline]; rfl
  have hrest : s.dataSteps.rxLine ch = rest := by rw [rxLine_dataSteps hch, hline]; rfl
  have hct := getElem?_dataSteps hc
  have hreceives := takeAnswers_receives s.params (sampleAnswers r) c
  obtain ⟨hready, hraw⟩ := ChannelState.takeAnswers_sampleAnswers hrx s.params r
  rw [htake] at hct
  generalize c.takeAnswers s.params (sampleAnswers r) = d at hct hready hraw hreceives
  rw [ChannelState.checkPacket_of_value hready hraw hr,
    ChannelState.filterPacket_of_pending rfl] at hct
  refine ⟨_, _, execAll_three_process hmode hst, hct, rfl, hrest, ?_⟩
  have hgate : (d.convertOk r).handToFilter.gate = true ↔ 64878 ≤ r.toNat :=
    Num.gateSplitsTheConvertedValues r
  have hfiltered : d.filteredValue = c.filteredValue := hreceives.keeps _
  have hprevious : d.previousValue = c.previousValue := hreceives.keeps _
  split
  next hlow =>
    have hbelow := Bool.eq_false_iff.mpr (hgate.not.mpr hlow.not_ge)
    rw [ChannelState.filter_of_not_gate hbelow, ← hprevious]
    exact ⟨rfl, rfl, rfl, rfl, rfl, rfl, rfl⟩
  next hhigh =>
    rw [ChannelState.filter_of_gate (hgate.mpr (not_lt.mp hhigh))]
    exact ⟨rfl, rfl, rfl, rfl, rfl, hfiltered, hprevious⟩

end Sys2Proof.Machine

/-! PROOFS. The host's operations TICK, INIT and the getters (44_host_ops.md), and the steps that run no
instruction: what stops the decoder is a reserved operation code or a key without a row (R96, R225). -/

namespace Sys2Proof

/-- What the decoder answers when it reads no instruction: only format OP has reserved codes. -/
theorem decode_error_cases {c : Cmd} {e : DecodeError} (h : decode c = .error e) :
    e = .noRow c.format c.key ∨ c.format = .OP ∧ ∃ code, e = .reservedOp code := by
  unfold decode at h
  split at h
  next => exact .inl (Except.error.inj h).symm
  next =>
    split at h
    next => split at h <;> cases h; exact .inl rfl
    next => split at h <;> cases h; exact .inl rfl
    next => cases h
    next => cases h
    next hf => split at h <;> cases h; exact .inr ⟨hf, _, rfl⟩

/-- A key no row of the table has, in a format without reserved codes, is an error by that name. -/
theorem decode_of_firstRow_none {c : Cmd} (hrow : firstRow c.format c.key = none)
    (hop : c.format ≠ .OP) : decode c = .error (.noRow c.format c.key) := by
  obtain hwide | hlt := le_or_gt (2 ^ c.format.width) c.key.toNat
  · exact decode_of_le hwide
  · rw [firstRow_eq_decode c hlt] at hrow
    cases hd : decode c with
    | ok i => rw [hd] at hrow; cases hrow
    | error e =>
      obtain rfl | ⟨hf, -⟩ := decode_error_cases hd
      · rfl
      · exact absurd hf hop

namespace Machine

theorem step_of_reservedOp {s : State} {c : Cmd} {rest : List Cmd} {code : BitVec 4}
    (hqueue : s.queue = c :: rest) (hdecode : decode c = .error (.reservedOp code)) :
    step s = .next (s.setQueue rest) := by
  simp only [step, State.fetch_cons hqueue, hdecode, State.reservedOp]

theorem step_of_noRow {s : State} {c : Cmd} {rest : List Cmd} {f : Format} {key : BitVec 16}
    (hqueue : s.queue = c :: rest) (hdecode : decode c = .error (.noRow f key)) :
    step s = .refused (.noSuchKey f key) := by
  simp only [step, State.fetch_cons hqueue, hdecode]

/-- Settles O45: TICK's increment is the saturating one of R11. -/
theorem tickIncrementsTheCounter : Obligations.TickIncrementsTheCounter := fun _ =>
  exec_tick_of_same rfl rfl

/-- Settles O48: INIT is one update, which writes the reset values, the distance among them as the
rounding of 99999.9. -/
theorem initRecreatesTheState : Obligations.InitRecreatesTheState := by
  intro s
  rw [exec_init_eq, ← Num.distInit_eq]
  rfl

/-- Settles O50: on an existing channel a getter reads its register. -/
theorem gettersReturnTheRegisters : Obligations.GettersReturnTheRegisters := fun _ _ _ hc =>
  ⟨exec_getDist_of_some hc, exec_getErr_of_some hc⟩

/-- Settles O52: a reserved code, an empty trace, a key without a row, and a key too wide. -/
theorem stepWithoutAnInstruction : Obligations.StepWithoutAnInstruction :=
  ⟨fun _ _ _ _ hqueue hdecode => step_of_reservedOp hqueue hdecode,
    fun _ hqueue => step_idle hqueue,
    fun _ _ _ hqueue hrow hop => step_of_noRow hqueue (decode_of_firstRow_none hrow hop),
    fun _ _ _ hqueue hwide => step_of_noRow hqueue (decode_of_le hwide)⟩

end Machine
end Sys2Proof

/-! PROOFS. Exceptions and concurrency (60_exceptions.md): no instruction stops the machine (R240), and
the debounce counter is all that the tick context and the main context share (R251, R252). -/

namespace Sys2Proof.Machine

theorem contextOf_eq_tick_iff {i : Instr} : contextOf i = .tick ↔ i = .tick := by
  by_cases hi : i = .tick <;> simp [contextOf, hi]

theorem contextOf_eq_main_iff {i : Instr} : contextOf i = .main ↔ i ≠ .tick := by
  by_cases hi : i = .tick <;> simp [contextOf, hi]

/-- Settles O47: TICK, the tick context's one instruction, is a change of the counter, and any other
instruction leaves the counter, or zeroes it as INIT or in the Reset step. -/
theorem counterIsTheOnlySharedRegister : Obligations.CounterIsTheOnlySharedRegister := by
  refine ⟨fun i s t hctx h => ?_, fun i s t hctx h =>
    exec_debounceCounter (contextOf_eq_main_iff.mp hctx) h⟩
  obtain rfl := contextOf_eq_tick_iff.mp hctx
  obtain rfl := Host.Outcome.next.inj ((exec_tick_of_same rfl rfl).symm.trans h)
  rfl

/-- Settles O53: INIT is one update, of neither the parameters nor the trace, with a new channel for
each old one; what any other instruction leaves in place is `Leaves`. -/
theorem everyOperationReturnsANextState : Obligations.EveryOperationReturnsANextState := by
  intro i s
  by_cases hi : i = .init
  · subst hi
    exact ⟨_, exec_init_eq s, rfl, List.length_replicate, rfl⟩
  · obtain ⟨t, ht, hleaves⟩ := exec_leaves i s hi
    exact ⟨t, ht, hleaves.params, hleaves.nCh, hleaves.queue⟩

end Sys2Proof.Machine

/-! PROOFS. A lost byte (R290): two bytes rejected in AwaitingByte1 are two framing errors, a sample
dropped in progress is none, and neither completes a sample. -/

namespace Sys2Proof.Machine

/-- `c'` is aligned, has `n` framing errors more than `c`, and has completed no sample (R290). -/
structure CostsErrors (n : Nat) (c c' : ChannelState) : Prop where
  rxState : c'.rxState = .awaitingByte1
  framingErrorCount : c'.framingErrorCount = c.framingErrorCount + n
  newPacketReady : c'.newPacketReady = c.newPacketReady
  raw18 : c'.raw18 = c.raw18

theorem CostsErrors.trans {m n : Nat} {c d e : ChannelState} (hcd : CostsErrors m c d)
    (hde : CostsErrors n d e) : CostsErrors (m + n) c e where
  rxState := hde.rxState
  framingErrorCount := by rw [hde.framingErrorCount, hcd.framingErrorCount, Nat.add_assoc]
  newPacketReady := hde.newPacketReady.trans hcd.newPacketReady
  raw18 := hde.raw18.trans hcd.raw18

section
variable {p : Params} {c : ChannelState} {b b₁ b₂ : Byte}

/-- A byte rejected in AwaitingByte1 is one framing error below saturation (R122 to R124). -/
theorem ChannelState.feed_costsErrors_one (hrx : c.rxState = .awaitingByte1)
    (hcount : c.framingErrorCount < 2 ^ p.ctrW - 1) (hb : b &&& 0xC0 ≠ 0x00) :
    CostsErrors 1 c (c.feed p b) := by
  rw [ChannelState.feed_of_awaitingByte1 hrx, if_neg hb]
  exact ⟨hrx, satInc_of_lt hcount, rfl, rfl⟩

theorem ChannelState.feed_feed_costsErrors_two (hrx : c.rxState = .awaitingByte1)
    (hcount : c.framingErrorCount + 2 ≤ 2 ^ p.ctrW - 1) (hb₁ : b₁ &&& 0xC0 ≠ 0x00)
    (hb₂ : b₂ &&& 0xC0 ≠ 0x00) : CostsErrors 2 c ((c.feed p b₁).feed p b₂) := by
  have hfirst : CostsErrors 1 c (c.feed p b₁) :=
    ChannelState.feed_costsErrors_one hrx (by omega) hb₁
  have hcount' : (c.feed p b₁).framingErrorCount < 2 ^ p.ctrW - 1 := by
    rw [hfirst.framingErrorCount]; omega
  exact hfirst.trans (ChannelState.feed_costsErrors_one hfirst.rxState hcount' hb₂)

/-- A first byte followed by no second byte is dropped without an error (R126). -/
theorem ChannelState.feed_feed_costsErrors_zero (hrx : c.rxState = .awaitingByte1)
    (hb₁ : b₁ &&& 0xC0 = 0x00) (hb : b &&& 0xC0 ≠ 0x40) :
    CostsErrors 0 c ((c.feed p b₁).feed p b) := by
  rw [ChannelState.feed_of_awaitingByte1 hrx, if_pos hb₁, ChannelState.feed_of_awaitingByte2 rfl,
    if_neg hb]
  exact ⟨rfl, rfl, rfl, rfl⟩

/-- A first and a second byte followed by no third byte are dropped without an error (R130). -/
theorem ChannelState.feed_feed_feed_costsErrors_zero (hrx : c.rxState = .awaitingByte1)
    (hb₁ : b₁ &&& 0xC0 = 0x00) (hb₂ : b₂ &&& 0xC0 = 0x40) (hb : b &&& 0xC0 ≠ 0x80) :
    CostsErrors 0 c (((c.feed p b₁).feed p b₂).feed p b) := by
  have hsecond : (c.accept1 (field0Of b₁)).rxState = .awaitingByte2 := rfl
  rw [ChannelState.feed_of_awaitingByte1 hrx, if_pos hb₁,
    ChannelState.feed_of_awaitingByte2 hsecond, if_pos hb₂,
    ChannelState.feed_of_awaitingByte3 rfl, if_neg hb]
  exact ⟨rfl, rfl, rfl, rfl⟩

end

/-- What bytes cost a channel is what feeding them to it leaves there. -/
theorem execAll_feed_of_costsErrors {s : State} {ch n : Nat} {c : ChannelState}
    (hc : s.channels[ch]? = some c) (bs : List Byte)
    (h : CostsErrors n c (c.takeAnswers s.params (bs.map some))) :
    ∃ t c', execAll (bs.map (Instr.feed ch)) s = .next t ∧ t.channels[ch]? = some c' ∧
      c'.rxState = .awaitingByte1 ∧ c'.framingErrorCount = c.framingErrorCount + n ∧
      c'.newPacketReady = c.newPacketReady ∧ c'.raw18 = c.raw18 := by
  obtain ⟨t, ht, hct⟩ := execAll_feed hc bs
  exact ⟨t, _, ht, hct, h.rxState, h.framingErrorCount, h.newPacketReady, h.raw18⟩

/-- Settles O18: without its first byte a sample is two rejected bytes; without its second it is
dropped at the third; and without its third it is dropped at the next sample's first byte, whose
other two are rejected. -/
theorem lostBytesCostWhatTheTableSays : Obligations.LostBytesCostWhatTheTableSays := by
  intro s ch c b₁ b₂ b₁' b₂' b₃' hc hrx hcount hb₁ hb₂ hb₁' hb₂' hb₃'
  have hb₂'_ne : b₂' &&& 0xC0 ≠ 0x00 := by rw [hb₂']; decide
  have hb₃'_ne : b₃' &&& 0xC0 ≠ 0x00 := by rw [hb₃']; decide
  refine ⟨execAll_feed_of_costsErrors hc [b₂', b₃'] ?_,
    execAll_feed_of_costsErrors (n := 0) hc [b₁, b₃'] ?_,
    execAll_feed_of_costsErrors hc [b₁, b₂, b₁', b₂', b₃'] ?_⟩
  · exact ChannelState.feed_feed_costsErrors_two hrx hcount hb₂'_ne hb₃'_ne
  · exact ChannelState.feed_feed_costsErrors_zero hrx hb₁ (by rw [hb₃']; decide)
  · have hdropped := ChannelState.feed_feed_feed_costsErrors_zero (p := s.params) hrx hb₁ hb₂
      (b := b₁') (by rw [hb₁']; decide)
    have hcount' := (congrArg (· + 2) hdropped.framingErrorCount).trans_le hcount
    exact hdropped.trans
      (ChannelState.feed_feed_costsErrors_two hdropped.rxState hcount' hb₂'_ne hb₃'_ne)

end Sys2Proof.Machine

/-! PROOFS. Starvation (R288): what can move the scheduler, and what the step of either wait leaves in
place when its condition is not met. -/

namespace Sys2Proof.Machine

/-! ### What can move the scheduler -/

/-- Every instruction but INIT, PROCESS and the rows of format S leaves the scheduler's state and the
answers of the check in place. -/
theorem exec_scheduler_cases {i : Instr} {s t : State} (hi : i ≠ .init) (h : exec i s = .next t) :
    (t.schedState = s.schedState ∧ t.initDoneAnswers = s.initDoneAnswers) ∨
      i = .process ∨ ∃ st, i = schedRow st := by
  cases i with
  | init => exact absurd rfl hi
  | process => exact .inr (.inl rfl)
  | sReset => exact .inr (.inr ⟨.reset, rfl⟩)
  | sWaitLaserReset => exact .inr (.inr ⟨.waitLaserReset, rfl⟩)
  | sInitLaser => exact .inr (.inr ⟨.initLaser, rfl⟩)
  | sWaitInitDone => exact .inr (.inr ⟨.waitInitDone, rfl⟩)
  | sCheckNewData => exact .inr (.inr ⟨.checkNewData, rfl⟩)
  | sCheckNewPacket => exact .inr (.inr ⟨.checkNewPacket, rfl⟩)
  | sFilterPacket => exact .inr (.inr ⟨.filterPacket, rfl⟩)
  | tick =>
    obtain rfl := Host.Outcome.next.inj h
    exact .inl ⟨rfl, rfl⟩
  | getDist ch =>
    obtain ⟨r, n, rfl⟩ := exec_getter (.inl rfl) h
    exact .inl ⟨rfl, rfl⟩
  | getErr ch =>
    obtain ⟨r, n, rfl⟩ := exec_getter (.inr rfl) h
    exact .inl ⟨rfl, rfl⟩
  | _ => -- the operations and rows that act on one channel
    obtain rfl := Host.Outcome.next.inj h
    exact .inl ⟨State.onChannel_schedState s _ _, State.onChannel_initDoneAnswers s _ _⟩

/-- Outside CheckNewData, where a fused PROCESS runs three steps, only the step of the scheduler's
state changes that state or the answers of the check (R190, R194). -/
theorem exec_scheduler_of_ne_checkNewData {i : Instr} {s t : State} (hi : i ≠ .init)
    (hne : s.schedState ≠ .checkNewData) (h : exec i s = .next t) :
    (t.schedState = s.schedState ∧ t.initDoneAnswers = s.initDoneAnswers) ∨
      t = State.schedStep s.schedState s := by
  obtain hsame | rfl | ⟨st, rfl⟩ := exec_scheduler_cases hi h
  · exact .inl hsame
  · obtain rfl := Host.Outcome.next.inj h
    exact .inr (State.process_eq_schedStep fun hst => absurd hst hne)
  · by_cases hst : s.schedState = st
    · obtain rfl := Host.Outcome.next.inj ((exec_schedRow_of_eq hst).symm.trans h)
      exact .inr (by rw [hst])
    · obtain rfl := Host.Outcome.next.inj ((exec_schedRow_of_ne hst).symm.trans h)
      exact .inl ⟨rfl, rfl⟩

/-! ### The two waits (R192, R194) -/

theorem State.stepWaitLaserReset_of_le {s : State} (h : s.debounceCounter ≤ 50) :
    s.stepWaitLaserReset = s := if_neg (Nat.not_lt.mpr h)

/-- A check none of whose answers is true answers false (R194). -/
theorem State.initDoneAnswer_eq_false {s : State} (hrest : s.params.initDoneRest = false)
    (hlist : ∀ a ∈ s.initDoneAnswers, a = false) : s.initDoneAnswer = false := by
  cases hl : s.initDoneAnswers with
  | nil => exact (State.initDoneAnswer_of_nil hl).trans hrest
  | cons a l =>
    rw [State.initDoneAnswer_of_cons hl]
    exact hlist a (hl ▸ List.mem_cons_self)

theorem State.stepWaitInitDone_of_false {s : State} (h : s.initDoneAnswer = false) :
    s.stepWaitInitDone = s.askInitDone := if_neg (Bool.eq_false_iff.mp h)

/-- Neither wait writes a channel. -/
theorem State.process_channels_of_wait {s : State}
    (h : s.schedState = .waitLaserReset ∨ s.schedState = .waitInitDone) :
    s.process.channels = s.channels := by
  obtain hst | hst := h
  · rw [State.process_eq_schedStep (by simp [hst]), hst]
    simp only [State.schedStep, State.stepWaitLaserReset_eq, State.setSched_channels]
  · rw [State.process_eq_schedStep (by simp [hst]), hst]
    simp only [State.schedStep, State.stepWaitInitDone_eq, State.setSched_channels,
      State.askInitDone_channels]

theorem exec_waitLaserReset_of_le {i : Instr} {s t : State} (hinit : i ≠ .init) (htick : i ≠ .tick)
    (h : exec i s = .next t) (hst : s.schedState = .waitLaserReset) (hle : s.debounceCounter ≤ 50) :
    t.schedState = .waitLaserReset ∧ t.debounceCounter = s.debounceCounter := by
  have hne_reset : s.schedState ≠ .reset := by rw [hst]; decide
  refine ⟨?_, (exec_debounceCounter htick h).resolve_right ?_⟩
  · obtain ⟨hsame, -⟩ | rfl :=
      exec_scheduler_of_ne_checkNewData hinit (by rw [hst]; decide) h
    · exact hsame.trans hst
    · simp only [hst, State.schedStep, State.stepWaitLaserReset_of_le hle]
  · rintro ⟨-, rfl | ⟨hreset, -⟩⟩
    · exact hinit rfl
    · exact hne_reset hreset

theorem exec_waitInitDone_of_never {i : Instr} {s t : State} (hinit : i ≠ .init)
    (h : exec i s = .next t) (hst : s.schedState = .waitInitDone)
    (hrest : s.params.initDoneRest = false) (hlist : ∀ a ∈ s.initDoneAnswers, a = false) :
    t.schedState = .waitInitDone ∧ t.params.initDoneRest = false ∧
      ∀ a ∈ t.initDoneAnswers, a = false := by
  have hparams : t.params = s.params := (leaves_of_exec hinit h).params
  have hne : s.schedState ≠ .checkNewData := by rw [hst]; decide
  obtain ⟨hsame, hanswers⟩ | rfl := exec_scheduler_of_ne_checkNewData hinit hne h
  · exact ⟨hsame.trans hst, hparams ▸ hrest, hanswers ▸ hlist⟩
  · have hstep : State.schedStep s.schedState s = s.askInitDone := by
      rw [hst]
      exact State.stepWaitInitDone_of_false (State.initDoneAnswer_eq_false hrest hlist)
    rw [hstep]
    exact ⟨hst, hrest, fun a ha => hlist a (List.mem_of_mem_tail ha)⟩

/-- Settles O60: in either wait the one step that could lead out does not, and no other instruction
moves the scheduler; neither wait writes a channel for the getter to see. -/
theorem starvationIsNotTimedOut : Obligations.StarvationIsNotTimedOut := by
  refine ⟨fun _ _ _ => exec_waitLaserReset_of_le, fun _ _ _ => exec_waitInitDone_of_never,
    fun i s t hinit hprocess hrows h => ?_, fun s ch c hst hc => ?_⟩
  · obtain ⟨hsame, -⟩ | hi | ⟨st, hi⟩ := exec_scheduler_cases hinit h
    · exact hsame
    · exact absurd hi hprocess
    · exact absurd hi (hrows st)
  · have hchannels := State.process_channels_of_wait hst
    have hget : exec (.getDist ch) s.process = .next _ :=
      exec_getDist_of_some ((congrArg (·[ch]?) hchannels).trans hc)
    exact ⟨_, (execAll_pair rfl).trans hget, hchannels, rfl⟩

end Sys2Proof.Machine
